-- ==== Sys2Proof/Word.lean ====
section
/-! DEFINITION. The word types of the bridge and the fixed-size table every block keeps its records in.

Bytes of a frame, the 32-bit timestamp and the 64-bit floor mask are bit vectors, because the description treats them
as bits (section 5.2).  A table of `n` records is a list that carries the proof of its length, so an index of type
`Fin n` always names a record. -/

namespace Sys2Proof

/-- A byte of a frame (R118). -/
abbrev Byte := BitVec 8

/-- A value of the timestamp counter: 32 bits, units of 10 ms (section 5.2, R160). -/
abbrev Stamp := BitVec 32

/-- A floor set, floor 0 in the least significant bit (section 5.2). -/
abbrev FloorSet := BitVec 64

/-- A table of exactly `n` records, numbered from 0. -/
structure Tbl (α : Type) (n : Nat) where
  rows : List α
  size : rows.length = n
deriving DecidableEq, Repr

namespace Tbl

variable {α β : Type} {n : Nat}

/-- The record at index `i`. -/
def get (t : Tbl α n) (i : Fin n) : α := t.rows.get (i.cast t.size.symm)

/-- The table with record `i` replaced by `x`. -/
def set (t : Tbl α n) (i : Fin n) (x : α) : Tbl α n :=
  ⟨t.rows.set i.val x, by rw [List.length_set]; exact t.size⟩

/-- The table with every record changed by `f`. -/
def map (f : α → β) (t : Tbl α n) : Tbl β n :=
  ⟨t.rows.map f, by rw [List.length_map]; exact t.size⟩

/-- The table of `n` copies of `x`. -/
def fill (n : Nat) (x : α) : Tbl α n := ⟨List.replicate n x, List.length_replicate⟩

/-- The table with record `i` changed by `f`. -/
def upd (t : Tbl α n) (i : Fin n) (f : α → α) : Tbl α n := t.set i (f (t.get i))

end Tbl

end Sys2Proof
end

