-- ==== Sys2Proof/Config.lean ====
section
/-! DEFINITION. The values the description leaves open, as constants with no body (free values).

Nothing can be proved about the value of one of these; a statement that involves one holds for every value of it.  Each
is named in the assumption log. -/

namespace Sys2Proof.Config

/-- R171: whether the `i`-th entry of the store write in progress at the `n`-th supply failure is found written at the
next power-on.  The description says only that each entry is whole, old or new.  Log entry 3. -/
opaque storeEntryWritten : Nat → Nat → Bool

/-- R161 gives every log record a detail of 16 bits "holding the fields named by the rule that logs the record" and
does not say where in the 16 bits each field stands.  The model keeps the fields, and this is the 16-bit word they
make: `detailWord kind fields`, the fields as their R122 codes in the order the rule names them.  Log entry 4. -/
opaque detailWord : Nat → List Nat → BitVec 16

/-- R94: the ended number taken from a rack reply whose two-byte ended number is above 256, which is neither a play
number nor none.  The description states no value for it.  Log entry 5. -/
opaque endedOfBadCode : Nat → Option Byte

/-- R98, R120, R122: the payload of a rack's STATION POLL when its fields, coded as R122 lays down, need more than the 64
bytes R120 allows (a rack that serves more floors than fit).  The description states no coding for it; this is what is
sent, given the fields' bytes.  Log entry 13. -/
opaque longPoll : List Byte → List Byte

/-- R32, R35: the value of the plan clock for a number of seconds above 4,294,967,295, the greatest it counts to.  The
description does not say what follows it.  Log entry 29. -/
opaque planClockPast : Nat → BitVec 32

end Sys2Proof.Config
end

