-- ==== Sys2Proof/Syntax.lean ====
section
/-! DEFINITION. The commands of the bridge: one constructor for each row of the table of operations and events.

A command that stands for a good P-line frame (R123) carries the frame's header and the fields of its payload, with
any bytes that follow the named fields, so that the whole frame, check included, can be written back
(`Machine.frameOf`).  A command that stands for a timer running out names the record whose timer it is. -/

namespace Sys2Proof

/-- The two trunk lines (section 1.2). -/
inductive Line
  | p
  | s
deriving DecidableEq, Repr

/-- The three header bytes of Table 6-1 that a command carries: destination, source and class.  The kind byte is the
command's own. -/
structure Hdr where
  dst : Byte
  src : Byte
  cls : Byte
deriving DecidableEq, Repr

/-- A frame as Table 6-1 lays it out, without its length and check bytes, which follow from the rest (R120, R121). -/
structure Frame where
  dst : Byte
  src : Byte
  kind : Byte
  cls : Byte
  payload : List Byte
deriving DecidableEq, Repr

/-- How a candidate reply came to be refused (R119, R130, R131): it completed as a frame that is not good or not the
reply awaited, or the receiver discarded it on a broken character, on a length above 64, or on 2 ms of silence. -/
inductive RejectCause
  | badFrame
  | wrongFrame
  | brokenCharacter
  | lengthAbove64
  | silence
deriving DecidableEq, Repr

/-- A character heard on a line: a good one with its byte, or a broken one (R118). -/
inductive Heard
  | good (b : Byte)
  | broken
deriving DecidableEq, Repr

/-- The operations and events of the bridge, in the table's order. -/
inductive Instr
  | powerOn
  | detect (h : Hdr) (panel : Fin 16) (point : Fin 4096) (seq : Byte) (tail : List Byte)
  | fault (h : Hdr) (panel : Fin 16) (point : Fin 4096) (seq : Byte) (tail : List Byte)
  | faultClear (h : Hdr) (panel : Fin 16) (point : Fin 4096) (seq : Byte) (tail : List Byte)
  | normal (h : Hdr) (panel : Fin 16) (point : Fin 4096) (seq : Byte) (tail : List Byte)
  | regimeReset (h : Hdr) (payload : List Byte)
  | phaseHold (h : Hdr) (tail : List Byte)
  | phaseStep (h : Hdr) (tail : List Byte)
  | phaseRun (h : Hdr) (tail : List Byte)
  | generalEvacuate (h : Hdr) (tail : List Byte)
  | liveTalkStart (h : Hdr) (floors : FloorSet) (tail : List Byte)
  | liveTalkEnd (h : Hdr) (tail : List Byte)
  | liftRelease (h : Hdr) (bank : Fin 2) (tail : List Byte)
  | brigadeCommandUnknown (h : Hdr) (payload : List Byte)
  | poll (h : Hdr) (payload : List Byte)
  | turnFrameSent
  | turnAbandoned (c : Heard)
  | turnTimeout
  | loadTable (h : Hdr) (key : BitVec 32) (params : List Byte)
  | readTable (h : Hdr) (key : BitVec 32) (params : List Byte)
  | readRecord (h : Hdr) (key : BitVec 32) (params : List Byte)
  | readLog (h : Hdr) (key : BitVec 32) (params : List Byte)
  | readCapture (h : Hdr) (key : BitVec 32) (params : List Byte)
  | isolate (h : Hdr) (key : BitVec 32) (params : List Byte)
  | deIsolate (h : Hdr) (key : BitVec 32) (params : List Byte)
  | rackStandbyNow (h : Hdr) (key : BitVec 32) (params : List Byte)
  | rackCountdown (h : Hdr) (key : BitVec 32) (params : List Byte)
  | testDoor (h : Hdr) (key : BitVec 32) (params : List Byte)
  | acknowledgeLines (h : Hdr) (key : BitVec 32) (params : List Byte)
  | setKey (h : Hdr) (key : BitVec 32) (params : List Byte)
  | restart (h : Hdr) (key : BitVec 32) (params : List Byte)
  | manageUnknownSubcode (h : Hdr) (key : BitVec 32) (sub : Byte) (params : List Byte)
  | serviceRequest (h : Hdr) (payload : List Byte)
  | untakenFrame (h : Hdr) (kind : Byte) (payload : List Byte)
  | badFrame (l : Line) (bytes : List Byte)
  | silence2ms (l : Line)
  | nextTransaction
  | stationReply (h : Hdr) (payload : List Byte)
  | serviceAnswer (h : Hdr) (payload : List Byte)
  | answerWindowClose
  | rejectedCandidate (cause : RejectCause)
  | zoneWindowExpiry (z : Fin 256)
  | drain (stair : Fin 4)
  | phaseTimerExpiry
  | recallTimerExpiry (car : Fin 8)
  | mismatchTimerExpiry (point : Fin 128)
  | relockTimerExpiry
  | testTimerExpiry (point : Fin 128)
  | countdownExpiry (rack : Fin 4)
  | warmUpTimerExpiry (ch : Fin 2)
  | playTimerExpiry (ch : Fin 2)
  | restTimerExpiry (slot : Fin 16)
  | liveTalkLimit
  | pageLimit (slot : Fin 16)
  | holdDeadline (slot : Fin 16)
  | testPeriodExpiry
  | forwardLifetimeExpiry (entry : Fin 16)
  | quietLineTimerExpiry
  | timestampWrap
  | storeWriteEnd
  | restartWaitEnd
  | supplyFailure
  | brokenCharacter (l : Line)
  | frameLengthAbove64 (l : Line)
  | characterInHunt (l : Line)
  | frameBegun (l : Line) (b : Byte)
  | answerWindowOpen
  | alarmReportDiscarded (h : Hdr) (payload : List Byte)
  | manageSetAside (h : Hdr) (payload : List Byte)
deriving DecidableEq, Repr

end Sys2Proof
end

