-- ==== Sys2Proof/Machine/State.lean ====
section
/-! DEFINITION. Everything the description gives the bridge to hold, as plain data, and the bridge right after power-on
with a blank store.

The records follow the description's blocks (section 2, Table 1).  A timer is the number of 10 ms units it still has to
run, `none` when it is stopped.  Floors are `Fin 64`, zones `Fin 256`, stairs A to D `Fin 4`, banks 1 and 2 `Fin 2`.
The values in which a block has a choice of names are inductive types whose constructors stand in the order the rule
lists them, which is the order R122 codes them in. -/

namespace Sys2Proof.Machine

/-- A timer that starts at its full duration and is either stopped or has this many 10 ms units left. -/
abbrev Timer := Option Nat

/-- A timer that keeps its remainder while it is stopped: 10 ms units left, and whether it runs. -/
structure Stopwatch where
  left : Nat
  running : Bool
deriving DecidableEq, Repr

/-! ### Chapter 1: zones and the regime -/

/-- A device is its panel together with its point (R9). -/
structure Device where
  panel : Fin 16
  point : Fin 4096
deriving DecidableEq, Repr

/-- R2: the report kinds of an ALARM REPORT. -/
inductive AlarmKind
  | detect
  | fault
  | faultClear
  | normal
deriving DecidableEq, Repr

/-- R1: an entry of the zone map.  `panel` is 1 to 15. -/
structure MapEntry where
  panel : Fin 16
  low : Fin 4096
  high : Fin 4096
  zone : Fin 256
deriving DecidableEq, Repr

/-- R4: zone kinds. -/
inductive ZoneKind
  | detection
  | callPoint
  | stairSmoke
  | liftLobby
  | liftShaft
  | sprinklerFlow
  | plant
deriving DecidableEq, Repr

/-- R4: verification modes. -/
inductive Verification
  | none
  | doubleKnock
  | reAlarm
deriving DecidableEq, Repr

/-- R4: zone states. -/
inductive ZoneState
  | quiet
  | preAlarm
  | alarm
deriving DecidableEq, Repr

/-- R4: the configuration fields of a zone record; times in seconds. -/
structure ZoneCfg where
  kind : ZoneKind
  floor : Option (Fin 64)
  stair : Option (Fin 4)
  verification : Verification
  group : Option (Fin 32)
  knock : Nat
  quiet : Nat
deriving DecidableEq, Repr

/-- R4: a zone record.  `window` is the window timer of R8. -/
structure Zone where
  cfg : ZoneCfg
  state : ZoneState
  first : Option Device
  windowStart : Stamp
  count : Nat
  fault : Bool
  isolated : Bool
  window : Timer
deriving DecidableEq, Repr

/-- R16: the scope of an isolation entry. -/
inductive Scope
  | points (panel : Fin 16) (low high : Fin 4096)
  | zone (z : Fin 256)
deriving DecidableEq, Repr

/-- R16: an isolation entry; `active` is its status, ACTIVE or PENDING. -/
structure IsoEntry where
  scope : Scope
  active : Bool
deriving DecidableEq, Repr

/-- R22: regime states. -/
inductive Regime
  | quiescent
  | active
  | restoring
deriving DecidableEq, Repr

/-- R22: the causes of a change of regime. -/
inductive RegimeCause
  | zoneAlarm (z : Fin 256)
  | generalEvacuate
  | regimeReset
  | completion
deriving DecidableEq, Repr

/-- The zone map, zone table and isolation list (R1, R4, R16). -/
structure ZoneIntake where
  map : Tbl (Option MapEntry) 128
  table : Tbl Zone 256
  isolation : List IsoEntry
deriving DecidableEq, Repr

/-- The Regime Controller (R22). -/
structure RegimeCtl where
  state : Regime
  allClearDone : Bool
  relockDone : Bool
deriving DecidableEq, Repr

/-! ### Chapter 2: the plan -/

/-- R28: floor states. -/
inductive FloorState
  | normal
  | alert
  | evacuate
deriving DecidableEq, Repr

/-- R28: promotion causes. -/
inductive PromotionCause
  | immediate
  | phase
  | general
deriving DecidableEq, Repr

/-- R28: a floor record (its message row is held by the Announcement Scheduler, R91). -/
structure Floor where
  occupancy : Nat
  mask : BitVec 4
  rack : Fin 4
  state : FloorState
  cause : Option PromotionCause
  promotedAt : Stamp
  urgency : Nat
  noStair : Bool
deriving DecidableEq, Repr

/-- R32: an outstanding share of a stair. -/
structure Load where
  floor : Fin 64
  share : Nat
  expiry : Nat
deriving DecidableEq, Repr

/-- R31, R75: release modes of a stair. -/
inductive ReleaseMode
  | all
  | follow
deriving DecidableEq, Repr

/-- R31: a stair record. -/
structure Stair where
  capacity : Nat
  window : Nat
  mode : ReleaseMode
  budget : Nat
  committed : Nat
  inService : Bool
  loads : List Load
deriving DecidableEq, Repr

/-- R34: sequencer states. -/
inductive SeqState
  | idle
  | running
  | held
  | complete
deriving DecidableEq, Repr

/-- The Evacuation Sequencer.  `planTicks` is the part of a second, in 10 ms units, the plan clock has run since its
last whole second (the model's own field). -/
structure Sequencer where
  floors : Tbl Floor 64
  stairs : Tbl Stair 4
  state : SeqState
  phase : Stopwatch
  planClock : Nat
  planTicks : Nat
deriving DecidableEq, Repr

/-! ### Chapter 3: lifts -/

/-- R55: the choice of a bank's recall floor. -/
inductive Choice
  | primary
  | alternate
  | compromised
deriving DecidableEq, Repr

/-- R55: a bank record. -/
structure Bank where
  iface : Byte
  primary : Fin 64
  primaryZone : Option (Fin 256)
  alternate : Fin 64
  alternateZone : Option (Fin 256)
  shaft : Option (Fin 256)
  timeout : Nat
  recallFloor : Fin 64
  choice : Choice
deriving DecidableEq, Repr

/-- R56: reported motion. -/
inductive Motion
  | stopped
  | up
  | down
deriving DecidableEq, Repr

/-- R56: reported doors. -/
inductive CarDoors
  | opened
  | closed
  | moving
deriving DecidableEq, Repr

/-- R56: reported mode. -/
inductive CarMode
  | normal
  | independent
  | inspection
  | outOfService
  | recalled
  | firefighter
deriving DecidableEq, Repr

/-- R56: the four reported fields, which arrive together; position `none` is UNKNOWN. -/
structure CarReport where
  position : Option (Fin 64)
  motion : Motion
  doors : CarDoors
  mode : CarMode
deriving DecidableEq, Repr

/-- R56: recall states. -/
inductive RecallState
  | free
  | recalling
  | parked
  | firefighter
  | stranded
  | overdue
  | shutdown
  | lost
deriving DecidableEq, Repr

/-- R56: the state before a loss, with its target floor if it had one. -/
structure BeforeLoss where
  state : RecallState
  target : Option (Fin 64)
deriving DecidableEq, Repr

/-- R56: a car record in use. -/
structure Car where
  bank : Fin 2
  index : Fin 4
  served : FloorSet
  reported : Option CarReport
  state : RecallState
  target : Option (Fin 64)
  start : Stamp
  timer : Timer
  compromised : Bool
  before : Option BeforeLoss
deriving DecidableEq, Repr

/-- The Lift Recall Unit. -/
structure Lifts where
  banks : Tbl Bank 2
  cars : Tbl (Option Car) 8
deriving DecidableEq, Repr

/-! ### Chapter 4: stair doors -/

/-- R74: commanded states. -/
inductive Lock
  | locked
  | released
deriving DecidableEq, Repr

/-- R74: lock feedback. -/
inductive LockFeedback
  | engaged
  | disengaged
deriving DecidableEq, Repr

/-- R74: door feedback. -/
inductive DoorFeedback
  | opened
  | closed
deriving DecidableEq, Repr

/-- R76: a feedback pair. -/
structure Feedback where
  lock : LockFeedback
  door : DoorFeedback
deriving DecidableEq, Repr

/-- R74: supervision. -/
inductive Supervision
  | correct
  | mismatch
  | fault
  | heldOpen
deriving DecidableEq, Repr

/-- R74: a door point record in use. -/
structure DoorPoint where
  controller : Byte
  output : Fin 8
  floor : Fin 64
  stair : Fin 4
  commanded : Lock
  feedback : Option Feedback
  supervision : Supervision
  mismatch : Timer
  pending : Bool
  test : Timer
deriving DecidableEq, Repr

/-- The Stair Door Unit. -/
structure Doors where
  points : Tbl (Option DoorPoint) 128
  relock : Timer
deriving DecidableEq, Repr

/-! ### Chapter 5: announcements -/

/-- R91: a message row; 63 stands for none. -/
structure MessageRow where
  alert : Fin 64
  evacuate : Fin 64
  useStair : Tbl (Fin 64) 4
  refuge : Fin 64
deriving DecidableEq, Repr

/-- R93: power states. -/
inductive Power
  | on
  | standby
  | waking
  | fault
deriving DecidableEq, Repr

/-- R93: commanded power. -/
inductive CommandedPower
  | on
  | standby
deriving DecidableEq, Repr

/-- R93: reported power. -/
inductive ReportedPower
  | on
  | standby
  | warming
deriving DecidableEq, Repr

/-- R93: a rack record; address 0 is a rack not fitted.  `countdown` is the remainder in 10 ms units; whether it runs
follows from R95. -/
structure Rack where
  address : Byte
  code : Nat
  power : Power
  commanded : CommandedPower
  countdown : Nat
  ended : Tbl (Option Byte) 2
  reported : Option ReportedPower
deriving DecidableEq, Repr

/-- R99: classes of jobs. -/
inductive JobClass
  | liveBrigade
  | evacuate
  | alert
  | allClear
  | test
  | tenant
deriving DecidableEq, Repr

/-- R99: sources of jobs. -/
inductive Source
  | message (m : Fin 64)
  | liveBrigade
  | liveTenant (entry : Fin 16)
deriving DecidableEq, Repr

/-- R99: repeats remaining. -/
inductive Repeats
  | times (n : Nat)
  | continuous
deriving DecidableEq, Repr

/-- R99: job states. -/
inductive JobState
  | waiting
  | playing
  | resting
deriving DecidableEq, Repr

/-- R99: a job.  `hold` is the hold deadline; `pageLimit` the limit of R114. -/
structure Job where
  cls : JobClass
  source : Source
  target : FloorSet
  repeats : Repeats
  state : JobState
  channel : Option (Fin 2)
  lastEnd : Option Stamp
  rest : Timer
  hold : Option Stamp
  pageLimit : Timer
deriving DecidableEq, Repr

/-- R103: channel states. -/
inductive ChannelState
  | idle
  | warming
  | playing
deriving DecidableEq, Repr

/-- R103, R107: a channel.  `marks` are the ended marks of the racks, rack 0 in bit 0. -/
structure Channel where
  state : ChannelState
  job : Option (Fin 16)
  held : FloorSet
  number : Byte
  warm : Timer
  play : Timer
  marks : BitVec 4
deriving DecidableEq, Repr

/-- R112: page status. -/
inductive PageStatus
  | idle
  | waiting
  | granted
  | refused
  | ended
deriving DecidableEq, Repr

/-- R112: a tenant entry in use. -/
structure Tenant where
  console : Byte
  allowed : FloorSet
  status : PageStatus
deriving DecidableEq, Repr

/-- R108: end causes of a play. -/
inductive EndCause
  | complete
  | timeout
  | dropped
  | cut
  | removed
deriving DecidableEq, Repr

/-- R100: a standing job is known by its class and message; `evac` is class 1, otherwise class 2. -/
structure Standing where
  evac : Bool
  msg : Fin 64
deriving DecidableEq, Repr

/-- The Announcement Scheduler. -/
structure Announce where
  rows : Tbl MessageRow 64
  racks : Tbl Rack 4
  jobs : Tbl (Option Job) 16
  channels : Tbl Channel 2
  tenants : Tbl (Option Tenant) 16
  owed : List Standing
  testTimer : Timer
  liveLimit : Timer
deriving DecidableEq, Repr

/-! ### Chapter 8: station kinds and states, which reports name -/

/-- R147: station kinds. -/
inductive StationKind
  | liftInterface
  | doorController
  | amplifierRack
  | tenantConsole
deriving DecidableEq, Repr

/-- R147: a station record in use. -/
structure Station where
  address : Byte
  kind : StationKind
  lost : Bool
  noAnswer : Nat
  lastReply : Option Stamp
deriving DecidableEq, Repr

/-! ### Chapter 9: the event log -/

/-- Table 9-1, in its order. -/
inductive EventKind
  | unmappedReport
  | isolatedReport
  | zoneState
  | unconfirmedDetection
  | zoneFault
  | regimeState
  | resetRefused
  | commandRefused
  | floorPromoted
  | noStair
  | stairWithdrawn
  | carState
  | doorFault
  | heldOpen
  | rackFault
  | jobTableFull
  | pageExpired
  | testDropped
  | gatedDrop
  | frameLogged
  | forwardDropped
  | forwardExpired
  | stationLost
  | stationOnline
  | reportLost
  | tableLoaded
  | timestampWrap
  | restart
deriving DecidableEq, Repr

/-- Section 10.2: the loadable tables, in the order listed. -/
inductive TableId
  | zoneMap
  | zoneTable
  | floorTable
  | stairTable
  | bankTable
  | carTable
  | doorPointTable
  | stationTable
  | messageRows
  | tenantTable
  | filterList
  | parameters
  | addresses
deriving DecidableEq, Repr

/-- R161: subjects of log records. -/
inductive Subject
  | none
  | zone (z : Fin 256)
  | point (d : Device)
  | floor (f : Fin 64)
  | stair (st : Fin 4)
  | car (i : Fin 8)
  | doorPoint (i : Fin 128)
  | rack (r : Fin 4)
  | jobSlot (j : Fin 16)
  | filterElement (e : Fin 32)
  | stationRecord (i : Fin 48)
  | stationAddress (a : Byte)
  | reportQueue
  | table (t : TableId)
deriving DecidableEq, Repr

/-- R85, R87: causes of a DOOR FAULT record. -/
inductive DoorFaultCause
  | feedback
  | cleared
  | stationLost
deriving DecidableEq, Repr

/-- R94: causes of a RACK FAULT record. -/
inductive RackFaultCause
  | warmUp
  | stationLost
  | cleared
deriving DecidableEq, Repr

/-- R161, R175: details of a RESTART record. -/
inductive RestartDetail
  | powerOn
  | restart
  | abandoned
deriving DecidableEq, Repr

/-- R161: the fields a record's detail holds, as the rule that logs it names them. -/
inductive Detail
  | zero
  | report (kind : AlarmKind) (seq : Byte)
  | zoneState (state : ZoneState) (seq : Byte)
  | count (n : Nat)
  | zoneFault (isSet : Bool) (seq : Byte)
  | regime (state : Regime) (cause : RegimeCause)
  | source (a : Byte)
  | command (code : Byte)
  | promoted (cause : PromotionCause) (urgency : Nat)
  | zone (z : Fin 256)
  | car (state : RecallState) (target : Option (Fin 64)) (compromised : Bool)
  | doorFault (cause : DoorFaultCause) (commanded : Lock) (lock : Option LockFeedback)
  | doorCleared
  | rackFault (cause : RackFaultCause)
  | standing (s : Standing)
  | sourceKind (src kind : Byte)
  | sourceDest (src dst : Byte)
  | sourceClass (src cls : Byte)
  | station (address : Byte) (kind : StationKind)
  | reportLost (kind : Byte) (cls : Nat) (held : Bool)
  | loaded (start count : Nat)
  | restart (d : RestartDetail)
deriving DecidableEq, Repr

/-- R161: a record of the event log. -/
structure LogRecord where
  seq : BitVec 16
  stamp : Stamp
  kind : EventKind
  subject : Subject
  detail : Detail
deriving DecidableEq, Repr

/-- The Event Log block (R160, R161, R163): the records held, oldest first. -/
structure EventLog where
  stamp : Stamp
  records : List LogRecord
  nextSeq : BitVec 16
  sinceRead : Nat
deriving DecidableEq, Repr

/-- Section 9.3: the nine conditions. -/
inductive Condition
  | regimeActive
  | anyPreAlarm
  | zoneFault
  | stationLost
  | doorFault
  | carOverdueOrStranded
  | rackFault
  | pSilent
  | logWatermark
deriving DecidableEq, Repr

/-- R164: a common line.  `route` holds the nine conditions in order, the first in bit 0; `latched` is its mode. -/
structure CommonLine where
  route : BitVec 9
  latched : Bool
  latch : Bool
  output : Bool
deriving DecidableEq, Repr

/-! ### Chapter 6: the report queue and the lines -/

/-- R48: the brigade commands. -/
inductive BrigadeCommand
  | phaseHold
  | phaseStep
  | phaseRun
  | generalEvacuate
  | liveTalkStart
  | liveTalkEnd
  | liftRelease
deriving DecidableEq, Repr

/-- R47: answers to a brigade command. -/
inductive Answer
  | accepted
  | noChange
  | busy
  | regimeActive
  | unknown
deriving DecidableEq, Repr

/-- R47: causes of a SEQUENCER REPORT; a command answered is named by its code as received, absent where the payload
carried none. -/
inductive SeqCause
  | command (code : Option Byte) (answer : Answer)
  | regimeEntry
  | zoneChange
  | phaseEvaluation
  | regimeReset
deriving DecidableEq, Repr

/-- R47: what a SEQUENCER REPORT says of one stair. -/
structure StairLine where
  inService : Bool
  committed : Nat
  budget : Nat
  entries : Nat
deriving DecidableEq, Repr

/-- R47: a SEQUENCER REPORT. -/
structure SeqReport where
  cause : SeqCause
  state : SeqState
  remainder : Nat
  planClock : Nat
  promoted : FloorSet
  evacuate : FloorSet
  alertCount : Nat
  stairs : List StairLine
deriving DecidableEq, Repr

/-- R168: reply codes. -/
inductive Reply
  | done
  | refusedKey
  | refusedRegime
  | busy
  | badTable
  | badCount
  | badEntry
  | tableFull
  | unknown
deriving DecidableEq, Repr

/-- The payloads of the frames the report queue holds (R15, R22, R47, R60, R90, R94, R107, R108, R146, R157, R168). -/
inductive Payload
  | zone (z : Fin 256) (state : ZoneState) (first : Option Device) (count : Nat) (fault isolated : Bool)
  | regime (state : Regime) (cause : RegimeCause)
  | sequencer (r : SeqReport)
  | car (i : Fin 8) (bank : Fin 2) (index : Fin 4) (state : RecallState) (target : Option (Fin 64))
      (reported : Option CarReport) (compromised : Bool) (choice : Choice)
  | doorPoint (i : Fin 128) (controller : Byte) (output : Fin 8) (floor : Fin 64) (stair : Fin 4) (commanded : Lock)
      (feedback : Option Feedback) (supervision : Supervision) (pending test : Bool)
  | rack (r : Fin 4) (power : Power) (commanded : CommandedPower) (reported : Option ReportedPower) (countdown : Nat)
      (runs : Bool)
  | channel (ch : Fin 2) (number : Byte) (slot : Option (Fin 16)) (cls : Option JobClass) (source : Option Source)
      (floors : FloorSet) (ended : Option EndCause)
  | station (i : Fin 48) (address : Byte) (kind : StationKind) (lost : Bool) (noAnswer : Nat) (lastReply : Option Stamp)
  | forwardExpired (station cls : Byte) (ref : Option Byte)
  | forwardFailed (station cls : Byte) (ref : Option Byte) (late : Bool)
  | serviceAnswer (late truncated : Bool) (station : Byte) (answer : List Byte)
  | manageReply (sub : Byte) (reply : Reply) (index : Nat) (data : List Byte)
deriving DecidableEq, Repr

/-- R124: an entry of the report queue.  `sending` marks the entry whose frame is on the line in a turn (R126; the
model's own mark of which entry leaves when the frame has been sent). -/
structure QEntry where
  dest : Byte
  cls : Nat
  payload : Payload
  stamp : Stamp
  sending : Bool
deriving DecidableEq, Repr

/-- R126, R127: the frame a turn has on the line, or is about to start: the report marked `sending`, or TURN END with
its remaining count and URGENT mark. -/
inductive TurnFrame
  | report (e : QEntry)
  | turnEnd (remaining : Nat) (urgent : Bool)
deriving DecidableEq, Repr

/-- R126: a turn in progress: the source of its POLL, the report frames it has sent, and its present frame, absent in the
gap before a frame starts (R128). -/
structure Turn where
  master : Byte
  sent : Nat
  frame : Option TurnFrame
deriving DecidableEq, Repr

/-- R119: receiver states; `inFrame` holds the bytes collected. -/
inductive Rx
  | hunt
  | ready
  | inFrame (bytes : List Byte)
deriving DecidableEq, Repr

/-- R118, R119: a trunk line: its receiver and the rate it runs at. -/
structure Trunk where
  rx : Rx
  rate : Nat
deriving DecidableEq, Repr

/-- The P-line Port (R124, R126, R129). -/
structure Port where
  queue : List QEntry
  turn : Option Turn
  timeout : Stopwatch
  silent : Bool
  line : Trunk
deriving DecidableEq, Repr

/-! ### Chapter 7: the Frame Classifier -/

/-- R135: the header byte an element tests. -/
inductive FilterField
  | destination
  | source
  | kind
deriving DecidableEq, Repr

/-- R135: tests. -/
inductive FilterTest
  | range (low high : Byte)
  | pair (a b : Byte)
  | mask (mask value : Byte)
deriving DecidableEq, Repr

/-- R135: actions. -/
inductive FilterAction
  | forward
  | forwardAndLog
  | gatedForward
  | drop
  | capture (k : Fin 4)
  | captureAndForward (k : Fin 4)
deriving DecidableEq, Repr

/-- R135: an element of the filter list. -/
structure FilterElem where
  enabled : Bool
  field : FilterField
  test : FilterTest
  action : FilterAction
deriving DecidableEq, Repr

/-- R140: a full capture slot. -/
structure Capture where
  bytes : List Byte
  stamp : Stamp
  element : Fin 32
deriving DecidableEq, Repr

/-- R142: an entry of the S forward queue; `onLine` is its state ON LINE, otherwise QUEUED. -/
structure Forward where
  frame : Frame
  arrival : Stamp
  onLine : Bool
  late : Bool
deriving DecidableEq, Repr

/-- The Frame Classifier. -/
structure Classifier where
  filter : Tbl FilterElem 32
  slots : Tbl (Option Capture) 4
  queue : List Forward
deriving DecidableEq, Repr

/-! ### Chapter 8: the services line -/

/-- R149: what a transaction is; `withdrawn` is a poll whose record has been taken out of use since it was sent, and whose
outcome is discarded (R158). -/
inductive TxnKind
  | poll (record : Fin 48)
  | withdrawn
  | forward
deriving DecidableEq, Repr

/-- R59, R153: the commands a poll carries for a car. -/
inductive CarCommand
  | noRecall
  | recallTo (f : Fin 64)
  | firefighterControl
  | shutdownAt (f : Fin 64)
deriving DecidableEq, Repr

/-- R98: what a rack is told of a channel: the play number and source of a PLAYING one. -/
structure PlayLine where
  number : Byte
  source : Source
deriving DecidableEq, Repr

/-- R153: what a STATION POLL carries for each kind of station; a rack's routing is the floors it serves and the floors
of those routed to each channel. -/
inductive PollContent
  | lift (commands : List CarCommand)
  | doors (outputs : List Lock)
  | rack (power : CommandedPower) (serves routed0 routed1 : FloorSet) (play0 play1 : Option PlayLine)
  | console (status : PageStatus) (lamp : Regime)
deriving DecidableEq, Repr

/-- R130: the frame the bridge sent to open a transaction. -/
inductive TxnFrame
  | poll (content : PollContent)
  | forward (f : Frame)
deriving DecidableEq, Repr

/-- R130: the transaction in progress: what it is, the station it is addressed to, the frame the bridge sent, the
answer window (10 ms units left while it is open) and whether a candidate reply has begun in it. -/
structure Txn where
  kind : TxnKind
  dest : Byte
  sent : TxnFrame
  window : Timer
  candidate : Bool
deriving DecidableEq, Repr

/-- R152: line modes. -/
inductive LineMode
  | brisk
  | quiet
deriving DecidableEq, Repr

/-- The Services Line Scheduler. -/
structure SLine where
  stations : Tbl (Option Station) 48
  pointer : Option (Fin 48)
  early : List (Fin 48)
  burst : Nat
  mode : LineMode
  quietTimer : Timer
  txn : Option Txn
  line : Trunk
deriving DecidableEq, Repr

/-! ### Chapter 10: parameters, addresses, the store -/

/-- Table 10-2, less the rack addresses (held in the rack table, R93) and the common lines (R164). -/
structure Params where
  nf : Nat
  catchAll : Fin 256
  phaseInterval : Nat
  floorsPerStep : Nat
  discharge : Fin 64
  relockTime : Nat
  feedbackTime : Nat
  allClear : Fin 64
  testMessage : Fin 64
  rest : Tbl Nat 4
  testPeriod : Nat
  warmUp : Nat
  rateP : Nat
  rateS : Nat
  framesPerTurn : Nat
  queueMark : Nat
  defaultForward : Bool
  burstLimit : Nat
  logMark : Nat
deriving DecidableEq, Repr

/-- R170: the addresses table. -/
structure Addresses where
  own : Byte
  mainPanel : Byte
  brigade : Tbl Byte 2
deriving DecidableEq, Repr

/-- R170, R171: an entry of a loadable table as a LOAD TABLE frame carries it and the store holds it, its fields as
their R122 codes before any clamping. -/
inductive Entry
  | zoneMap (e : Option (Nat × Nat × Nat × Nat))
  | zone (kind floor stair verification group knock quiet : Nat)
  | floor (occupancy mask rack : Nat)
  | stair (capacity window mode : Nat)
  | bank (iface primary primaryZone alternate alternateZone shaft timeout : Nat)
  | car (e : Option (Nat × Nat × FloorSet))
  | doorPoint (e : Option (Nat × Nat × Nat × Nat))
  | station (e : Option (Nat × Nat))
  | messages (alert evacuate stairA stairB stairC stairD refuge : Nat)
  | tenant (e : Option (Nat × FloorSet))
  | filter (enabled field test a b action k : Nat)
  | param (v : Nat)
  | common (route mode : Nat)
  | address (v : Nat)
  | bad
deriving DecidableEq, Repr

/-- R171: the things the store holds, each with the place it has; the isolation list entry by entry, a place past its
end empty (log entry 39). -/
inductive StoreItem
  | entry (t : TableId) (index : Nat) (e : Entry)
  | code (r : Fin 4) (code : Nat)
  | isolation (place : Fin 64) (scope : Option Scope)
  | key (k : BitVec 32)
deriving DecidableEq, Repr

/-- R171: a store write: the entries it carries, and the reply queued at its end, if a MANAGE frame caused it:
destination, subcode, reply code and index. -/
structure StoreWrite where
  items : List StoreItem
  reply : Option (Byte × Byte × Reply × Nat)
deriving DecidableEq, Repr

/-- The Management Unit: the key, the store (the items written, in the order R171 applies them), the writes (the head
is in progress) and the wait of a RESTART (10 ms units left of its 2 s). -/
structure Mgmt where
  key : BitVec 32
  store : List StoreItem
  writes : List StoreWrite
  wait : Timer
deriving DecidableEq, Repr

/-- What has come about within the event in progress, kept for its end: the conditions that have come to hold (R165), the
first of the nine in bit 0, and the addresses whose owner has changed what their poll carries (R151).
The model's own, empty when an event begins and when it has ended (log entry 34). -/
structure Notes where
  onsets : BitVec 9
  owners : List Byte
deriving DecidableEq, Repr

/-- The whole bridge.  `powered` says whether the supply is on; `notes` is what the event in progress has brought about
(the model's own); `failures` counts the supply failures (the model's own counter, read by the free value
`Config.storeEntryWritten`); `pending` is the queue of commands that wait, first in, first out (the model's own). -/
structure State where
  powered : Bool
  zones : ZoneIntake
  regime : RegimeCtl
  seq : Sequencer
  lifts : Lifts
  doors : Doors
  ann : Announce
  port : Port
  cls : Classifier
  sline : SLine
  log : EventLog
  lines : Tbl CommonLine 2
  params : Params
  addrs : Addresses
  mgmt : Mgmt
  notes : Notes
  failures : Nat
  pending : List Instr
deriving DecidableEq, Repr

/-- No command of this bridge ends in a fault: the description gives every operation and event an effect in every
state, and an event whose timer is not running has nothing to act on (R13, R111).  Nobody raises one. -/
inductive Fault
deriving DecidableEq, Repr

/-- Why the model could give no meaning to a command. -/
inductive Refusal
  /-- Raised by `exec` for a row of the table that has no meaning yet; safe, since no claim about it can be proved.
  No row is left so. -/
  | notModelled (mnemonic : String)
deriving DecidableEq, Repr

/-! ### Values after power-on from a blank store -/

/-- R4: a zone record from a blank store. -/
def Zone.blank : Zone :=
  { cfg := { kind := .detection, floor := none, stair := none, verification := .none, group := none, knock := 120, quiet := 10 },
    state := .quiet, first := none, windowStart := 0, count := 0, fault := false, isolated := false, window := none }

/-- R28: a floor record from a blank store. -/
def Floor.blank : Floor :=
  { occupancy := 0, mask := 0, rack := 0, state := .normal, cause := none, promotedAt := 0, urgency := 127, noStair := false }

/-- R31, R75: a stair record from a blank store. -/
def Stair.blank : Stair :=
  { capacity := 0, window := 1, mode := .all, budget := 0, committed := 0, inService := true, loads := [] }

/-- R55: a bank record from a blank store. -/
def Bank.blank : Bank :=
  { iface := 0, primary := 0, primaryZone := none, alternate := 0, alternateZone := none, shaft := none, timeout := 180,
    recallFloor := 0, choice := .primary }

/-- R91: a message row from a blank store. -/
def MessageRow.blank : MessageRow := { alert := 63, evacuate := 63, useStair := Tbl.fill 4 63, refuge := 63 }

/-- R93: a rack record from a blank store.  For a rack not fitted the description gives no power state; the model holds
the values of a fitted one (log entry 6). -/
def Rack.blank : Rack :=
  { address := 0, code := 0, power := .waking, commanded := .on, countdown := 0, ended := Tbl.fill 2 none, reported := none }

/-- R103: a channel after power-on. -/
def Channel.blank : Channel :=
  { state := .idle, job := none, held := 0, number := 0, warm := none, play := none, marks := 0 }

/-- R135: a filter element from a blank store. -/
def FilterElem.blank : FilterElem := { enabled := false, field := .destination, test := .range 0 0, action := .drop }

/-- Table 10-2's factory values (R2, R28, R34, R75, R91, R99, R102, R105, R118, R126, R127, R139, R149, R163). -/
def Params.factory : Params :=
  { nf := 64, catchAll := 255, phaseInterval := 120, floorsPerStep := 2, discharge := 0, relockTime := 300,
    feedbackTime := 5, allClear := 63, testMessage := 63, rest := Tbl.fill 4 3, testPeriod := 0, warmUp := 20,
    rateP := 19200, rateS := 19200, framesPerTurn := 4, queueMark := 24, defaultForward := false, burstLimit := 2,
    logMark := 192 }

/-- R164: COMMON FIRE and COMMON FAULT from a blank store, latches clear and outputs inactive. -/
def factoryLines : Tbl CommonLine 2 :=
  ⟨[{ route := 0b000000001, latched := false, latch := false, output := false },
    { route := 0b011111100, latched := true, latch := false, output := false }], rfl⟩

/-- R176: every block after power-on from a blank store, with an empty log; the supply on. -/
def State.blank : State :=
  { powered := true
    zones := { map := Tbl.fill 128 none, table := Tbl.fill 256 Zone.blank, isolation := [] }
    regime := { state := .quiescent, allClearDone := false, relockDone := false }
    seq := { floors := Tbl.fill 64 Floor.blank, stairs := Tbl.fill 4 Stair.blank, state := .idle,
             phase := { left := 0, running := false }, planClock := 0, planTicks := 0 }
    lifts := { banks := Tbl.fill 2 Bank.blank, cars := Tbl.fill 8 none }
    doors := { points := Tbl.fill 128 none, relock := none }
    ann := { rows := Tbl.fill 64 MessageRow.blank, racks := Tbl.fill 4 Rack.blank, jobs := Tbl.fill 16 none,
             channels := Tbl.fill 2 Channel.blank, tenants := Tbl.fill 16 none, owed := [], testTimer := none,
             liveLimit := none }
    port := { queue := [], turn := none, timeout := { left := 500, running := false }, silent := false,
              line := { rx := .hunt, rate := 19200 } }
    cls := { filter := Tbl.fill 32 FilterElem.blank, slots := Tbl.fill 4 none, queue := [] }
    sline := { stations := Tbl.fill 48 none, pointer := none, early := [], burst := 0, mode := .brisk,
               quietTimer := some 60000, txn := none, line := { rx := .hunt, rate := 19200 } }
    log := { stamp := 0, records := [], nextSeq := 0, sinceRead := 0 }
    lines := factoryLines
    params := Params.factory
    addrs := { own := 0, mainPanel := 0, brigade := Tbl.fill 2 0 }
    mgmt := { key := 0, store := [], writes := [], wait := none }
    notes := { onsets := 0, owners := [] }
    failures := 0
    pending := [] }

/-- The bridge right after power-on with a blank store (R176): every block at its power-on values and the RESTART record
with detail POWER-ON, sequence number 0, in the log (R161), which counts 1 toward the watermark (R163). -/
def State.reset : State :=
  { State.blank with
    log := { stamp := 0, records := [{ seq := 0, stamp := 0, kind := .restart, subject := .none, detail := .restart .powerOn }],
             nextSeq := 1, sinceRead := 1 } }

end Sys2Proof.Machine
end

