-- ==== Sys2Proof/Machine/Bytes.lean ====
section
/-! DEFINITION. Bytes, the check, and frames: chapter 6, R119 to R122.

Numbers are carried high byte first (R122); the check is the 16-bit register of R121. -/

namespace Sys2Proof.Machine

/-- R122: a number in `k` bytes, high byte first. -/
def be : Nat → Nat → List Byte
  | 0, _ => []
  | k + 1, v => BitVec.ofNat 8 (v / 256 ^ k) :: be k v

/-- R122: the number some bytes carry, high byte first. -/
def ofBE (bs : List Byte) : Nat := bs.foldl (fun acc b => acc * 256 + b.toNat) 0

/-- R122: `none` takes the code after the greatest other code. -/
def orNone {n : Nat} (o : Option (Fin n)) : Nat := o.elim n Fin.val

/-- A set-or-clear field: 1 for set, 0 for clear (log entry 7). -/
def flag (b : Bool) : Nat := if b then 1 else 0

/-- R121: the register after one data bit. -/
def checkBit (r : BitVec 16) (bit : Bool) : BitVec 16 :=
  if r.msb != bit then (r <<< 1) ^^^ 0x1021 else r <<< 1

/-- R121: the register after one byte, most significant bit first. -/
def checkByte (r : BitVec 16) (b : Byte) : BitVec 16 :=
  [7, 6, 5, 4, 3, 2, 1, 0].foldl (fun r i => checkBit r (b.getLsbD i)) r

/-- R121: the check over some bytes. -/
def check (bs : List Byte) : BitVec 16 := bs.foldl checkByte 0xFFFF

/-- Table 6-1: bytes 0 to 4 + L of a frame. -/
def frameBody (f : Frame) : List Byte :=
  [f.dst, f.src, f.kind, f.cls, BitVec.ofNat 8 f.payload.length] ++ f.payload

/-- Table 6-1: the whole frame, check included. -/
def frameBytes (f : Frame) : List Byte := frameBody f ++ be 2 (check (frameBody f)).toNat

/-- R120 step 2: the header of a good frame. -/
def goodHeader (f : Frame) : Bool :=
  decide (f.dst.toNat ≤ 126) && decide (1 ≤ f.src.toNat) && decide (f.src.toNat ≤ 126) && decide (f.cls.toNat ≤ 7)

/-- R119, R120: the good frame that some received bytes are, if they are one: 7 + L bytes with L at most 64, the check
right and the header in range. -/
def goodFrame (bs : List Byte) : Option Frame :=
  match bs with
  | dst :: src :: kind :: cls :: len :: rest =>
    if len.toNat ≤ 64 ∧ rest.length = len.toNat + 2 then
      let f : Frame := { dst, src, kind, cls, payload := rest.take len.toNat }
      if rest.drop len.toNat = be 2 (check (frameBody f)).toNat ∧ goodHeader f = true then some f else none
    else none
  | _ => none

/-! ### Kind codes (Table 6-2) -/

def kindPoll : Byte := 0x10
def kindTurnEnd : Byte := 0x11
def kindAlarmReport : Byte := 0x20
def kindRegimeReset : Byte := 0x21
def kindBrigadeCommand : Byte := 0x22
def kindManage : Byte := 0x30
def kindManageReply : Byte := 0x31
def kindStateReport : Byte := 0x40
def kindServiceRequest : Byte := 0x50
def kindServiceAnswer : Byte := 0x51
def kindStationPoll : Byte := 0x60
def kindStationReply : Byte := 0x61

/-! ### Codes of named values (R122: a value's place in the list its rule gives) -/

/-- R2: the code of a report kind. -/
def alarmCode : AlarmKind → Byte
  | .detect => 0
  | .fault => 1
  | .faultClear => 2
  | .normal => 3

/-- R48: the code of a brigade command. -/
def brigadeCode : BrigadeCommand → Byte
  | .phaseHold => 0
  | .phaseStep => 1
  | .phaseRun => 2
  | .generalEvacuate => 3
  | .liveTalkStart => 4
  | .liveTalkEnd => 5
  | .liftRelease => 6

/-- Table 10-1: the codes of the subcodes, in the table's order. -/
def subLoadTable : Byte := 0
def subReadTable : Byte := 1
def subReadRecord : Byte := 2
def subReadLog : Byte := 3
def subReadCapture : Byte := 4
def subIsolate : Byte := 5
def subDeIsolate : Byte := 6
def subRackStandbyNow : Byte := 7
def subRackCountdown : Byte := 8
def subTestDoor : Byte := 9
def subAcknowledgeLines : Byte := 10
def subSetKey : Byte := 11
def subRestart : Byte := 12

/-- R122: a device in two bytes, the panel in the top four bits. -/
def deviceCode (d : Device) : Nat := d.panel.val * 4096 + d.point.val

/-- R122: the value that a code stands for in a list of named values. -/
def ofCode {α : Type} (names : List α) (code : Nat) : Option α := names[code]?

/-- A number as an index below `n`, if it is one. -/
def index? (n i : Nat) : Option (Fin n) := if h : i < n then some ⟨i, h⟩ else none

/-- A code that is an index below `n`, or `n` itself for none (R122). -/
def indexOrNone? (n i : Nat) : Option (Option (Fin n)) :=
  if h : i < n then some (some ⟨i, h⟩) else if i = n then some none else none

/-- Section 5.3: a value out of range taken as the nearest end of the range. -/
def clamp (lo hi v : Nat) : Nat := max lo (min hi v)

def zoneKinds : List ZoneKind := [.detection, .callPoint, .stairSmoke, .liftLobby, .liftShaft, .sprinklerFlow, .plant]
def verifications : List Verification := [.none, .doubleKnock, .reAlarm]
def releaseModes : List ReleaseMode := [.all, .follow]
def stationKinds : List StationKind := [.liftInterface, .doorController, .amplifierRack, .tenantConsole]
def motions : List Motion := [.stopped, .up, .down]
def carDoorStates : List CarDoors := [.opened, .closed, .moving]
def carModes : List CarMode := [.normal, .independent, .inspection, .outOfService, .recalled, .firefighter]
def lockFeedbacks : List LockFeedback := [.engaged, .disengaged]
def doorFeedbacks : List DoorFeedback := [.opened, .closed]
def reportedPowers : List ReportedPower := [.on, .standby, .warming]
def filterFields : List FilterField := [.destination, .source, .kind]

/-! ### Floor sets and units -/

/-- The set of the floors that satisfy `p`. -/
def setOf (p : Fin 64 → Bool) : FloorSet := BitVec.ofFnLE p

/-- Whether a floor set holds floor `f`. -/
def inSet (s : FloorSet) (f : Fin 64) : Bool := s.getLsbD f.val

/-- 10 ms units in some seconds. -/
def ticks (seconds : Nat) : Nat := seconds * 100

/-- The whole seconds a timer still has to run, a part of a second counted as one (log entry 8). -/
def seconds (t : Nat) : Nat := (t + 99) / 100

/-- R160: the 10 ms units elapsed since a recorded timestamp, modulo 2^32. -/
def elapsed (now since : Stamp) : Nat := (now - since).toNat

end Sys2Proof.Machine
end

