-- ==== Sys2Proof/Machine/Encode.lean ====
section
/-! DEFINITION. The payload bytes of the frames the bridge composes: R122 applied to the fields each rule names; and the frames that commands are.

Every function gives the fields in the order its rule names them; a field present in some cases is omitted in the others. -/

namespace Sys2Proof.Machine

/-- One byte holding a code. -/
def b1 (v : Nat) : List Byte := be 1 v

/-- R122: a present device in two bytes, an absent one omitted. -/
def deviceBytes (d : Option Device) : List Byte := d.elim [] fun d => be 2 (deviceCode d)

/-- A floor set in eight bytes (section 5.2). -/
def floorSetBytes (s : FloorSet) : List Byte := be 8 s.toNat

/-- A timestamp, or absent as the code after the greatest, which takes a fifth byte (R122). -/
def stampOrAbsent (t : Option Stamp) : List Byte := be 5 (t.elim (2 ^ 32) BitVec.toNat)

/-- A floor that is present in some cases. -/
def floorIf (f : Option (Fin 64)) : List Byte := f.elim [] fun f => b1 f.val

/-- R22: the cause of a change of regime, with the zone's number where there is one. -/
def regimeCauseBytes : RegimeCause → List Byte
  | .zoneAlarm z => b1 0 ++ b1 z.val
  | .generalEvacuate => b1 1
  | .regimeReset => b1 2
  | .completion => b1 3

/-- R47: the cause, and for COMMAND the command and the answer; a command absent from its payload takes code 7. -/
def seqCauseBytes : SeqCause → List Byte
  | .command code a => b1 0 ++ b1 (code.elim 7 BitVec.toNat) ++ b1 a.ctorIdx
  | .regimeEntry => b1 1
  | .zoneChange => b1 2
  | .phaseEvaluation => b1 3
  | .regimeReset => b1 4

/-- R47: one stair of a SEQUENCER REPORT. -/
def stairLineBytes (x : StairLine) : List Byte :=
  b1 (flag x.inService) ++ be 2 x.committed ++ be 2 x.budget ++ b1 x.entries

/-- R47: the payload of a SEQUENCER REPORT after its report type. -/
def seqReportBytes (r : SeqReport) : List Byte :=
  seqCauseBytes r.cause ++ b1 r.state.ctorIdx ++ be 2 r.remainder ++ be 4 r.planClock ++ floorSetBytes r.promoted ++
    floorSetBytes r.evacuate ++ b1 r.alertCount ++ r.stairs.flatMap stairLineBytes

/-- R56, R60: the four reported fields; UNKNOWN is 64 and absent 65 in a position, absent 3 or 6 in the others. -/
def reportedBytes : Option CarReport → List Byte
  | some r => b1 (orNone r.position) ++ b1 r.motion.ctorIdx ++ b1 r.doors.ctorIdx ++ b1 r.mode.ctorIdx
  | none => b1 65 ++ b1 3 ++ b1 3 ++ b1 6

/-- R76, R90: lock and door feedback, absent coded 2. -/
def feedbackBytes : Option Feedback → List Byte
  | some f => b1 f.lock.ctorIdx ++ b1 f.door.ctorIdx
  | none => b1 2 ++ b1 2

/-- R99: a source: a message number as itself, LIVE BRIGADE 63, LIVE TENANT 64 followed by its entry (log entry 9). -/
def sourceBytes : Source → List Byte
  | .message m => b1 m.val
  | .liveBrigade => b1 63
  | .liveTenant e => b1 64 ++ b1 e.val

/-- R122: report types of a STATE REPORT, then the fields each report carries; and the payloads of the two other kinds
of entry (R146, R168).  A rack's countdown travels as R93 gives the field: its remaining seconds and whether it runs (log
entry 45).  The index of a MANAGE REPLY is one byte, and an index of 256 travels as 0 (DESIGN CHOICE, log entry 54). -/
def payloadBytes : Payload → List Byte
  | .zone z st first count fault iso =>
    b1 0 ++ b1 z.val ++ b1 st.ctorIdx ++ deviceBytes first ++ b1 count ++ b1 (flag fault) ++ b1 (flag iso)
  | .regime st cause => b1 1 ++ b1 st.ctorIdx ++ regimeCauseBytes cause
  | .sequencer r => b1 2 ++ seqReportBytes r
  | .car i bank index st target reported compromised choice =>
    b1 3 ++ b1 i.val ++ b1 (bank.val + 1) ++ b1 index.val ++ b1 st.ctorIdx ++ floorIf target ++ reportedBytes reported ++
      b1 (flag compromised) ++ b1 choice.ctorIdx
  | .doorPoint i controller output floor stair commanded feedback supervision pending test =>
    b1 4 ++ b1 i.val ++ [controller] ++ b1 output.val ++ b1 floor.val ++ b1 stair.val ++ b1 commanded.ctorIdx ++
      feedbackBytes feedback ++ b1 supervision.ctorIdx ++ b1 (flag pending) ++ b1 (flag test)
  | .rack r power commanded reported countdown runs =>
    b1 5 ++ b1 r.val ++ b1 power.ctorIdx ++ b1 commanded.ctorIdx ++ b1 (reported.elim 3 ReportedPower.ctorIdx) ++
      be 2 (seconds countdown) ++ b1 (flag runs)
  | .channel ch number slot cls source floors ended =>
    b1 6 ++ b1 ch.val ++ [number] ++ b1 (orNone slot) ++ b1 (cls.elim 6 JobClass.ctorIdx) ++ source.elim [] sourceBytes ++
      floorSetBytes floors ++ ended.elim [] fun e => b1 e.ctorIdx
  | .station i address kind lost noAnswer lastReply =>
    b1 7 ++ b1 i.val ++ [address] ++ b1 kind.ctorIdx ++ b1 (flag lost) ++ b1 noAnswer ++ stampOrAbsent lastReply
  | .forwardExpired station cls ref => b1 8 ++ [station, cls] ++ be 2 (ref.elim 256 BitVec.toNat)
  | .forwardFailed station cls ref late => b1 9 ++ [station, cls] ++ be 2 (ref.elim 256 BitVec.toNat) ++ b1 (flag late)
  | .serviceAnswer late truncated station answer =>
    b1 (flag late + 2 * flag truncated) ++ [station] ++ answer
  | .manageReply sub reply index data => [sub] ++ b1 reply.ctorIdx ++ b1 index ++ data

/-- Table 6-2: the kind code of the frame a payload goes in. -/
def payloadKind : Payload → Byte
  | .serviceAnswer .. => kindServiceAnswer
  | .manageReply .. => kindManageReply
  | _ => kindStateReport

/-- R120, R124: the frame of a report queue entry, its source the bridge's own address. -/
def entryFrame (own : Byte) (e : QEntry) : Frame :=
  { dst := e.dest, src := own, kind := payloadKind e.payload, cls := BitVec.ofNat 8 e.cls, payload := payloadBytes e.payload }

/-- R127: TURN END. -/
def turnEndFrame (own master : Byte) (remaining : Nat) (urgent : Bool) : Frame :=
  { dst := master, src := own, kind := kindTurnEnd, cls := 0, payload := b1 remaining ++ b1 (flag urgent) }

/-- R126: the bytes a turn puts on the P-line for its present frame; in a gap there are none. -/
def turnBytes (own : Byte) (t : Turn) : List Byte :=
  match t.frame with
  | none => []
  | some (.report e) => frameBytes (entryFrame own e)
  | some (.turnEnd remaining urgent) => frameBytes (turnEndFrame own t.master remaining urgent)

/-- R122: the payload of an ALARM REPORT. -/
def alarmPayload (k : AlarmKind) (d : Device) (seq : Byte) (tail : List Byte) : List Byte :=
  be 2 (deviceCode d) ++ [alarmCode k, seq] ++ tail

/-- R168: the payload of a MANAGE frame. -/
def managePayload (key : BitVec 32) (sub : Byte) (params : List Byte) : List Byte := be 4 key.toNat ++ [sub] ++ params

/-- A frame of a kind with a command's header. -/
def frameWith (h : Hdr) (kind : Byte) (payload : List Byte) : Frame :=
  { dst := h.dst, src := h.src, kind, cls := h.cls, payload }

/-! ### Log records (R161, R162) -/

/-- R161: the type code and number of a subject; none takes the code after the last type.  No rule gives a
number for REPORT QUEUE or none, and theirs is 0 (DESIGN CHOICE, log entry 53). -/
def subjectBytes : Subject → List Byte
  | .zone z => b1 0 ++ be 2 z.val
  | .point d => b1 1 ++ be 2 (deviceCode d)
  | .floor f => b1 2 ++ be 2 f.val
  | .stair st => b1 3 ++ be 2 st.val
  | .car i => b1 4 ++ be 2 i.val
  | .doorPoint i => b1 5 ++ be 2 i.val
  | .rack r => b1 6 ++ be 2 r.val
  | .jobSlot j => b1 7 ++ be 2 j.val
  | .filterElement e => b1 8 ++ be 2 e.val
  | .stationRecord i => b1 9 ++ be 2 i.val
  | .stationAddress a => b1 10 ++ be 2 a.toNat
  | .reportQueue => b1 11 ++ be 2 0
  | .table t => b1 12 ++ be 2 t.ctorIdx
  | .none => b1 13 ++ be 2 0

/-- R161: the fields of a detail, as their codes in the order the rule names them. -/
def detailFields : Detail → List Nat
  | .zero => [0]
  | .report kind seq => [(alarmCode kind).toNat, seq.toNat]
  | .zoneState st seq => [st.ctorIdx, seq.toNat]
  | .count n => [n]
  | .zoneFault isSet seq => [flag isSet, seq.toNat]
  | .regime st (.zoneAlarm z) => [st.ctorIdx, 0, z.val]
  | .regime st .generalEvacuate => [st.ctorIdx, 1]
  | .regime st .regimeReset => [st.ctorIdx, 2]
  | .regime st .completion => [st.ctorIdx, 3]
  | .source a => [a.toNat]
  | .command code => [code.toNat]
  | .promoted cause urgency => [cause.ctorIdx, urgency]
  | .zone z => [z.val]
  | .car st target compromised => [st.ctorIdx, orNone target, flag compromised]
  | .doorFault cause commanded lock => [cause.ctorIdx, commanded.ctorIdx, lock.elim 2 LockFeedback.ctorIdx]
  | .doorCleared => [DoorFaultCause.cleared.ctorIdx]
  | .rackFault cause => [cause.ctorIdx]
  | .standing p => [if p.evac then 1 else 2, p.msg.val]
  | .sourceKind src kind => [src.toNat, kind.toNat]
  | .sourceDest src dst => [src.toNat, dst.toNat]
  | .sourceClass src cls => [src.toNat, cls.toNat]
  | .station address kind => [address.toNat, kind.ctorIdx]
  | .reportLost kind cls held => [kind.toNat, cls, flag held]
  | .loaded start count => [start, count]
  | .restart d => [d.ctorIdx]

/-- R161: the 16 bits of a detail: a single field as its code, several as the free value `Config.detailWord` places
them (log entry 4). -/
def detailWord (kind : EventKind) (d : Detail) : BitVec 16 :=
  match detailFields d with
  | [v] => BitVec.ofNat 16 v
  | vs => Config.detailWord kind.ctorIdx vs

/-- R162: a log record in a READ LOG reply. -/
def logRecordBytes (r : LogRecord) : List Byte :=
  be 2 r.seq.toNat ++ be 4 r.stamp.toNat ++ b1 r.kind.ctorIdx ++ subjectBytes r.subject ++
    be 2 (detailWord r.kind r.detail).toNat

end Sys2Proof.Machine
end

