-- ==== Sys2Proof/WellFormed.lean ====
section
/-! DEFINITION. Which commands can occur: a frame's header in range (R120), a payload of at most 64 bytes (R119), and the
row of the table its payload belongs to. -/

namespace Sys2Proof

open Machine

/-- R120: a header of a good frame. -/
def Hdr.wf (h : Hdr) : Bool :=
  decide (h.dst.toNat ≤ 126) && decide (1 ≤ h.src.toNat) && decide (h.src.toNat ≤ 126) && decide (h.cls.toNat ≤ 7)

/-- R119: a payload that fits a frame beside `n` bytes of named fields. -/
def fits64 (n : Nat) (payload : List Byte) : Bool := decide (n + payload.length ≤ 64)

/-- R2: a payload that carries the four fields of an ALARM REPORT and names one of the four kinds. -/
def isAlarm : List Byte → Bool
  | _ :: _ :: k :: _ :: _ => decide (k.toNat ≤ 3)
  | _ => false

/-- R48: a payload that carries a command of the table and its argument. -/
def isBrigade : List Byte → Bool
  | [] => false
  | c :: rest =>
    match c.toNat with
    | 0 | 1 | 2 | 3 | 5 => true
    | 4 => decide (8 ≤ rest.length)
    | 6 => rest.head?.any fun b => b == 1 || b == 2
    | _ => false

/-- Table 7-1 and Table 6-2: the kinds of P-line frames that have a row of their own. -/
def kindsTaken : List Byte :=
  [kindPoll, kindAlarmReport, kindRegimeReset, kindBrigadeCommand, kindManage, kindServiceRequest]

/-- R119, R120: bytes of a completed frame, 7 + L of them. -/
def completed (bs : List Byte) : Bool :=
  match bs with
  | _ :: _ :: _ :: _ :: len :: rest => decide (len.toNat ≤ 64) && decide (rest.length = len.toNat + 2)
  | _ => false

/-- Which commands can occur. -/
def Instr.wf : Instr → Bool
  | .powerOn => true
  | .detect h _ _ _ tail => h.wf && fits64 4 tail
  | .fault h _ _ _ tail => h.wf && fits64 4 tail
  | .faultClear h _ _ _ tail => h.wf && fits64 4 tail
  | .normal h _ _ _ tail => h.wf && fits64 4 tail
  | .regimeReset h payload => h.wf && fits64 0 payload
  | .phaseHold h tail => h.wf && fits64 1 tail
  | .phaseStep h tail => h.wf && fits64 1 tail
  | .phaseRun h tail => h.wf && fits64 1 tail
  | .generalEvacuate h tail => h.wf && fits64 1 tail
  | .liveTalkStart h _ tail => h.wf && fits64 9 tail
  | .liveTalkEnd h tail => h.wf && fits64 1 tail
  | .liftRelease h _ tail => h.wf && fits64 2 tail
  | .brigadeCommandUnknown h payload => h.wf && fits64 0 payload && !isBrigade payload
  | .poll h payload => h.wf && fits64 0 payload
  | .turnFrameSent => true
  | .turnAbandoned _ => true
  | .turnTimeout => true
  | .loadTable h _ params => h.wf && fits64 5 params
  | .readTable h _ params => h.wf && fits64 5 params
  | .readRecord h _ params => h.wf && fits64 5 params
  | .readLog h _ params => h.wf && fits64 5 params
  | .readCapture h _ params => h.wf && fits64 5 params
  | .isolate h _ params => h.wf && fits64 5 params
  | .deIsolate h _ params => h.wf && fits64 5 params
  | .rackStandbyNow h _ params => h.wf && fits64 5 params
  | .rackCountdown h _ params => h.wf && fits64 5 params
  | .testDoor h _ params => h.wf && fits64 5 params
  | .acknowledgeLines h _ params => h.wf && fits64 5 params
  | .setKey h _ params => h.wf && fits64 5 params
  | .restart h _ params => h.wf && fits64 5 params
  | .manageUnknownSubcode h _ sub params => h.wf && fits64 5 params && decide (13 ≤ sub.toNat)
  | .serviceRequest h payload => h.wf && fits64 0 payload
  | .untakenFrame h kind payload => h.wf && fits64 0 payload && !kindsTaken.contains kind
  | .badFrame _ bytes => completed bytes && (goodFrame bytes).isNone
  | .silence2ms _ => true
  | .nextTransaction => true
  | .stationReply h payload => h.wf && fits64 0 payload
  | .serviceAnswer h payload => h.wf && fits64 0 payload
  | .answerWindowClose => true
  | .rejectedCandidate _ => true
  | .zoneWindowExpiry _ => true
  | .drain _ => true
  | .phaseTimerExpiry => true
  | .recallTimerExpiry _ => true
  | .mismatchTimerExpiry _ => true
  | .relockTimerExpiry => true
  | .testTimerExpiry _ => true
  | .countdownExpiry _ => true
  | .warmUpTimerExpiry _ => true
  | .playTimerExpiry _ => true
  | .restTimerExpiry _ => true
  | .liveTalkLimit => true
  | .pageLimit _ => true
  | .holdDeadline _ => true
  | .testPeriodExpiry => true
  | .forwardLifetimeExpiry _ => true
  | .quietLineTimerExpiry => true
  | .timestampWrap => true
  | .storeWriteEnd => true
  | .restartWaitEnd => true
  | .supplyFailure => true
  | .brokenCharacter _ => true
  | .frameLengthAbove64 _ => true
  | .characterInHunt _ => true
  | .frameBegun _ _ => true
  | .answerWindowOpen => true
  | .alarmReportDiscarded h payload => h.wf && fits64 0 payload && !isAlarm payload
  | .manageSetAside h payload => h.wf && decide (payload.length < 5)

end Sys2Proof
end

