-- ==== Sys2Proof/Decode.lean ====
section
/-! DEFINITION. Which command a P-line frame is (R2, R48, R132, R134, R168), and the frame a command is.

The opcode table gives its rows no bits, so no word of the table spells a command.  What a command looks like on the
P-line is its frame, and that is what is read and written here. -/

namespace Sys2Proof

open Machine

/-- The command a word of the table spells: none, since no row of the table gives bits. -/
def decodeTableWord (_nbits _w : Nat) : Option Instr := none

/-- The header a frame's command carries. -/
def hdrOf (f : Frame) : Hdr := { dst := f.dst, src := f.src, cls := f.cls }

/-! ### Reading -/

/-- R122: the device two bytes carry, the panel in the top four bits. -/
def deviceOf (a b : Byte) : Device :=
  { panel := ⟨a.toNat / 16, by have := a.isLt; omega⟩
    point := ⟨a.toNat % 16 * 256 + b.toNat, by have := b.isLt; omega⟩ }

/-- R2: an ALARM REPORT. -/
def readAlarm (h : Hdr) (payload : List Byte) : Instr :=
  match payload with
  | a :: b :: k :: seq :: tail =>
    let d := deviceOf a b
    match k.toNat with
    | 0 => .detect h d.panel d.point seq tail
    | 1 => .fault h d.panel d.point seq tail
    | 2 => .faultClear h d.panel d.point seq tail
    | 3 => .normal h d.panel d.point seq tail
    | _ => .alarmReportDiscarded h payload
  | _ => .alarmReportDiscarded h payload

/-- R48: a BRIGADE COMMAND. -/
def readBrigade (h : Hdr) (payload : List Byte) : Instr :=
  match payload with
  | [] => .brigadeCommandUnknown h []
  | c :: rest =>
    match c.toNat with
    | 0 => .phaseHold h rest
    | 1 => .phaseStep h rest
    | 2 => .phaseRun h rest
    | 3 => .generalEvacuate h rest
    | 4 =>
      if 8 ≤ rest.length then .liveTalkStart h (BitVec.ofNat 64 (ofBE (rest.take 8))) (rest.drop 8)
      else .brigadeCommandUnknown h payload
    | 5 => .liveTalkEnd h rest
    | 6 =>
      match rest with
      | b :: tail =>
        if b = 1 then .liftRelease h 0 tail else if b = 2 then .liftRelease h 1 tail
        else .brigadeCommandUnknown h payload
      | [] => .brigadeCommandUnknown h payload
    | _ => .brigadeCommandUnknown h payload

/-- R168: a MANAGE frame with its key and subcode. -/
def readSubcode (h : Hdr) (key : BitVec 32) (sub : Byte) (params : List Byte) : Instr :=
  match sub.toNat with
  | 0 => .loadTable h key params
  | 1 => .readTable h key params
  | 2 => .readRecord h key params
  | 3 => .readLog h key params
  | 4 => .readCapture h key params
  | 5 => .isolate h key params
  | 6 => .deIsolate h key params
  | 7 => .rackStandbyNow h key params
  | 8 => .rackCountdown h key params
  | 9 => .testDoor h key params
  | 10 => .acknowledgeLines h key params
  | 11 => .setKey h key params
  | 12 => .restart h key params
  | _ => .manageUnknownSubcode h key sub params

/-- R168: a MANAGE frame. -/
def readManage (h : Hdr) (payload : List Byte) : Instr :=
  match payload with
  | a :: b :: c :: d :: sub :: params => readSubcode h (BitVec.ofNat 32 (ofBE [a, b, c, d])) sub params
  | _ => .manageSetAside h payload

/-- R132, R134: the command a good P-line frame is. -/
def commandOf (f : Frame) : Instr :=
  let h := hdrOf f
  if f.kind = kindAlarmReport then readAlarm h f.payload
  else if f.kind = kindRegimeReset then .regimeReset h f.payload
  else if f.kind = kindBrigadeCommand then readBrigade h f.payload
  else if f.kind = kindPoll then .poll h f.payload
  else if f.kind = kindManage then readManage h f.payload
  else if f.kind = kindServiceRequest then .serviceRequest h f.payload
  else .untakenFrame h f.kind f.payload

/-- R119, R120, R123: the command the bytes of a completed P-line frame are: a good frame's, or BAD FRAME. -/
def commandOfBytes (bs : List Byte) : Instr :=
  match goodFrame bs with
  | some f => commandOf f
  | none => .badFrame .p bs

/-! ### Writing -/

/-- A MANAGE frame. -/
def manageFrame (h : Hdr) (key : BitVec 32) (sub : Byte) (params : List Byte) : Frame :=
  frameWith h kindManage (managePayload key sub params)

/-- A BRIGADE COMMAND frame. -/
def brigadeFrame (h : Hdr) (c : BrigadeCommand) (rest : List Byte) : Frame :=
  frameWith h kindBrigadeCommand (brigadeCode c :: rest)

/-- An ALARM REPORT frame. -/
def alarmFrame (h : Hdr) (k : AlarmKind) (d : Device) (seq : Byte) (tail : List Byte) : Frame :=
  frameWith h kindAlarmReport (alarmPayload k d seq tail)

/-- The P-line frame a command is, for those that are frames the bridge receives on the P-line. -/
def frameOf : Instr → Option Frame
  | .detect h panel point seq tail => some (alarmFrame h .detect { panel, point } seq tail)
  | .fault h panel point seq tail => some (alarmFrame h .fault { panel, point } seq tail)
  | .faultClear h panel point seq tail => some (alarmFrame h .faultClear { panel, point } seq tail)
  | .normal h panel point seq tail => some (alarmFrame h .normal { panel, point } seq tail)
  | .alarmReportDiscarded h payload => some (frameWith h kindAlarmReport payload)
  | .regimeReset h payload => some (frameWith h kindRegimeReset payload)
  | .phaseHold h tail => some (brigadeFrame h .phaseHold tail)
  | .phaseStep h tail => some (brigadeFrame h .phaseStep tail)
  | .phaseRun h tail => some (brigadeFrame h .phaseRun tail)
  | .generalEvacuate h tail => some (brigadeFrame h .generalEvacuate tail)
  | .liveTalkStart h floors tail => some (brigadeFrame h .liveTalkStart (floorSetBytes floors ++ tail))
  | .liveTalkEnd h tail => some (brigadeFrame h .liveTalkEnd tail)
  | .liftRelease h bank tail => some (brigadeFrame h .liftRelease (b1 (bank.val + 1) ++ tail))
  | .brigadeCommandUnknown h payload => some (frameWith h kindBrigadeCommand payload)
  | .poll h payload => some (frameWith h kindPoll payload)
  | .loadTable h key params => some (manageFrame h key subLoadTable params)
  | .readTable h key params => some (manageFrame h key subReadTable params)
  | .readRecord h key params => some (manageFrame h key subReadRecord params)
  | .readLog h key params => some (manageFrame h key subReadLog params)
  | .readCapture h key params => some (manageFrame h key subReadCapture params)
  | .isolate h key params => some (manageFrame h key subIsolate params)
  | .deIsolate h key params => some (manageFrame h key subDeIsolate params)
  | .rackStandbyNow h key params => some (manageFrame h key subRackStandbyNow params)
  | .rackCountdown h key params => some (manageFrame h key subRackCountdown params)
  | .testDoor h key params => some (manageFrame h key subTestDoor params)
  | .acknowledgeLines h key params => some (manageFrame h key subAcknowledgeLines params)
  | .setKey h key params => some (manageFrame h key subSetKey params)
  | .restart h key params => some (manageFrame h key subRestart params)
  | .manageUnknownSubcode h key sub params => some (manageFrame h key sub params)
  | .manageSetAside h payload => some (frameWith h kindManage payload)
  | .serviceRequest h payload => some (frameWith h kindServiceRequest payload)
  | .untakenFrame h kind payload => some (frameWith h kind payload)
  | _ => none

end Sys2Proof
end

