-- ==== Sys2Proof/Machine/Flags.lean ====
section
/-! DEFINITION. The nine conditions and the common lines (section 9.3), and what the event in progress has brought about
for its end.

The lines follow the conditions at the end of each event.  An onset is a condition that does not hold when the event begins
and holds when it ends, or one that passed from not holding to holding within it, which the operation that changed the
record has noted (R165; log entry 11). -/

namespace Sys2Proof.Machine

/-- Section 9.3: whether a condition holds. -/
def holds (s : State) : Condition → Bool
  | .regimeActive => s.regime.state == .active
  | .anyPreAlarm => s.zones.table.rows.any fun z => z.state == .preAlarm
  | .zoneFault => s.zones.table.rows.any fun z => z.fault && !z.isolated
  | .stationLost => s.sline.stations.rows.any fun st => st.any (·.lost)
  | .doorFault => s.doors.points.rows.any fun p => p.any (·.supervision == .fault)
  | .carOverdueOrStranded => s.lifts.cars.rows.any fun c => c.any fun c => c.state == .overdue || c.state == .stranded
  | .rackFault => s.ann.racks.rows.any fun r => r.address != 0 && r.power == .fault
  | .pSilent => s.port.silent
  | .logWatermark => decide (s.params.logMark ≤ s.log.sinceRead)

/-- The nine conditions in the order a route set lists them. -/
def conditions : List Condition :=
  [.regimeActive, .anyPreAlarm, .zoneFault, .stationLost, .doorFault, .carOverdueOrStranded, .rackFault, .pSilent,
   .logWatermark]

/-! ### Notes of the event in progress -/

/-- An event begins with nothing noted. -/
def beginEvent (s : State) : State := { s with notes := { onsets := 0, owners := [] } }

/-- R165: whether a condition has been noted to come to hold within the event. -/
def noted (s : State) (c : Condition) : Bool := s.notes.onsets.getLsbD c.ctorIdx

/-- R165: note a condition that did not hold in state `before` and holds now.  The operations that can change a condition
more than once in an event call it: an append for LOG WATERMARK, a change of a car for CAR OVERDUE OR STRANDED. -/
def noteOnset (c : Condition) (before s : State) : State :=
  if !holds before c && holds s c then
    { s with notes := { s.notes with onsets := s.notes.onsets ||| BitVec.ofNat 9 (2 ^ c.ctorIdx) } }
  else s

/-- R151: note that an owner has changed what the poll to an address carries. -/
def noteOwner (a : Byte) (s : State) : State :=
  { s with notes := { s.notes with owners := s.notes.owners ++ [a] } }

/-! ### The common lines -/

/-- R164: whether a line's route set holds a condition. -/
def routed (l : CommonLine) (c : Condition) : Bool := l.route.getLsbD c.ctorIdx

/-- R165: whether a routed condition of a line holds. -/
def anyHolds (s : State) (l : CommonLine) : Bool := conditions.any fun c => routed l c && holds s c

/-- R165: whether a condition has had an onset since state `before`. -/
def onset (before s : State) (c : Condition) : Bool := noted s c || (!holds before c && holds s c)

/-- R165: whether a routed condition of a line has had an onset since state `before`. -/
def anyOnset (before s : State) (l : CommonLine) : Bool := conditions.any fun c => routed l c && onset before s c

/-- R165: a line after an event. -/
def settleLine (before s : State) (l : CommonLine) : CommonLine :=
  let latch := l.latched && (l.latch || anyOnset before s l)
  { l with latch, output := latch || anyHolds s l }

/-- R165: both common lines after an event that began in state `before`. -/
def settleLines (before s : State) : State :=
  { s with
    lines := s.lines.map (settleLine before s)
    notes := { s.notes with onsets := 0 } }

/-- R165: the onsets noted so far taken by the lines as they are now routed. -/
def takeOnsets (s : State) : State :=
  { s with
    lines := s.lines.map fun l => { l with
      latch := l.latch || (l.latched && conditions.any fun c => routed l c && noted s c) }
    notes := { s.notes with onsets := 0 } }

/-- R164: a line whose route set or mode has been loaded: the latch cleared, and set again in LATCHED mode when a
condition of the new route set holds. -/
def loadLine (s : State) (route : BitVec 9) (latched : Bool) (l : CommonLine) : CommonLine :=
  let l := { l with route, latched, latch := false }
  { l with latch := latched && anyHolds s l }

/-- R166: ACKNOWLEDGE LINES clears the latch of each line in LATCHED mode. -/
def acknowledge (s : State) : State :=
  { s with lines := s.lines.map fun l => if l.latched then { l with latch := false } else l }

end Sys2Proof.Machine
end

