-- ==== Sys2Proof/Machine/Operands.lean ====
section
/-! DEFINITION. The operands of the management commands: table codes, scopes, and the entries of the loadable tables as
R122 codes them.

An entry whose record may be out of use begins with a byte that says so: 0 not in use (or empty), 1 in use, its fields
following (log entry 15). -/

namespace Sys2Proof.Machine

/-- Section 10.2: the thirteen loadable tables in the order listed. -/
def tableIds : List TableId :=
  [.zoneMap, .zoneTable, .floorTable, .stairTable, .bankTable, .carTable, .doorPointTable, .stationTable, .messageRows,
   .tenantTable, .filterList, .parameters, .addresses]

/-- Section 10.2: the first and the last index of a table. -/
def tableRange : TableId → Nat × Nat
  | .zoneMap => (0, 127)
  | .zoneTable => (0, 255)
  | .floorTable => (0, 63)
  | .stairTable => (0, 3)
  | .bankTable => (1, 2)
  | .carTable => (0, 7)
  | .doorPointTable => (0, 127)
  | .stationTable => (0, 47)
  | .messageRows => (0, 63)
  | .tenantTable => (0, 15)
  | .filterList => (0, 31)
  | .parameters => (0, 27)
  | .addresses => (0, 3)

/-! ### Reading fields -/

/-- A number taken from the first `k` bytes, and what follows them; none when they are not all there. -/
def field (k : Nat) (bs : List Byte) : Option (Nat × List Byte) :=
  if k ≤ bs.length then some (ofBE (bs.take k), bs.drop k) else none

/-- Numbers taken one after another, each of the given number of bytes. -/
def fields : List Nat → List Byte → Option (List Nat × List Byte)
  | [], bs => some ([], bs)
  | k :: ks, bs => (field k bs).bind fun p => (fields ks p.2).map fun q => (p.1 :: q.1, q.2)

/-- Numbers coded one after another, each in the given number of bytes. -/
def codes : List (Nat × Nat) → List Byte := fun ps => ps.flatMap fun p => be p.1 p.2

/-- A floor set as a number. -/
def asSet (v : Nat) : FloorSet := BitVec.ofNat 64 v

/-- Table 10-2, R122: the bytes of the parameter at an index, for those that are one number. -/
def paramSize : Nat → Nat
  | 2 | 5 | 19 | 20 | 25 => 2
  | _ => 1

/-- R16, R122: a scope as ISOLATE, DE-ISOLATE and READ TABLE carry it: point range 0 with panel, point low and point
high, or whole zone 1 with its zone (log entry 15). -/
def scopeBytes : Scope → List Byte
  | .points panel low high => b1 0 ++ b1 panel.val ++ be 2 low.val ++ be 2 high.val
  | .zone z => b1 1 ++ b1 z.val

/-- A scope as a frame carries it, its numbers not yet checked. -/
inductive RawScope
  | points (panel low high : Nat)
  | zone (z : Nat)
  | bad
deriving DecidableEq, Repr

/-- R168, R18: the scope a payload carries, if it is long enough to carry one. -/
def parseScope : List Byte → Option RawScope
  | [] => none
  | t :: bs =>
    match t.toNat with
    | 0 => match fields [1, 2, 2] bs with
      | some ([p, l, h], _) => some (.points p l h)
      | _ => none
    | 1 => (field 1 bs).map fun p => .zone p.1
    | _ => some .bad

/-- R18 step 1: a scope whose numbers are in range. -/
def checkScope : RawScope → Option Scope
  | .points p l h =>
    match index? 16 p, index? 4096 l, index? 4096 h with
    | some panel, some low, some high => if 1 ≤ p ∧ l ≤ h then some (.points panel low high) else none
    | _, _, _ => none
  | .zone z => (index? 256 z).map .zone
  | .bad => none

/-! ### Entries (R122, R169) -/

/-- The in-use byte of an entry and, when it is in use, what follows.  An in-use byte that is neither 0 nor 1 is an entry of
one byte, which is refused (DESIGN CHOICE, log entry 16). -/
def marked (f : List Byte → Option (Entry × List Byte)) (empty : Entry) (bs : List Byte) : Option (Entry × List Byte) :=
  (field 1 bs).bind fun p =>
    match p.1 with
    | 0 => some (empty, p.2)
    | 1 => f p.2
    | _ => some (.bad, p.2)

/-- R122, R169: the entry of a table at an index, taken from the front of some bytes; none when they are too few.  An entry of
the parameters table at an index with no parameter takes no bytes, and one of the filter list whose action names none carries
no capture slot (DESIGN CHOICE, log entry 16). -/
def parseEntry (t : TableId) (i : Nat) (bs : List Byte) : Option (Entry × List Byte) :=
  match t with
  | .zoneMap => marked (fun bs => match fields [1, 2, 2, 1] bs with
      | some ([p, l, h, z], rest) => some (.zoneMap (some (p, l, h, z)), rest)
      | _ => none) (.zoneMap none) bs
  | .zoneTable => match fields [1, 1, 1, 1, 1, 2, 1] bs with
    | some ([kind, floor, stair, ver, group, knock, quiet], rest) => some (.zone kind floor stair ver group knock quiet, rest)
    | _ => none
  | .floorTable => match fields [2, 1, 1] bs with
    | some ([occupancy, mask, rack], rest) => some (.floor occupancy mask rack, rest)
    | _ => none
  | .stairTable => match fields [1, 1, 1] bs with
    | some ([capacity, window, mode], rest) => some (.stair capacity window mode, rest)
    | _ => none
  | .bankTable => match fields [1, 1, 2, 1, 2, 2, 2] bs with
    | some ([iface, pf, pz, af, az, shaft, timeout], rest) => some (.bank iface pf pz af az shaft timeout, rest)
    | _ => none
  | .carTable => marked (fun bs => match fields [1, 1, 8] bs with
      | some ([bank, index, served], rest) => some (.car (some (bank, index, asSet served)), rest)
      | _ => none) (.car none) bs
  | .doorPointTable => marked (fun bs => match fields [1, 1, 1, 1] bs with
      | some ([controller, output, floor, stair], rest) => some (.doorPoint (some (controller, output, floor, stair)), rest)
      | _ => none) (.doorPoint none) bs
  | .stationTable => marked (fun bs => match fields [1, 1] bs with
      | some ([address, kind], rest) => some (.station (some (address, kind)), rest)
      | _ => none) (.station none) bs
  | .messageRows => match fields [1, 1, 1, 1, 1, 1, 1] bs with
    | some ([alert, evac, a, b, c, d, refuge], rest) => some (.messages alert evac a b c d refuge, rest)
    | _ => none
  | .tenantTable => marked (fun bs => match fields [1, 8] bs with
      | some ([console, allowed], rest) => some (.tenant (some (console, asSet allowed)), rest)
      | _ => none) (.tenant none) bs
  | .filterList => match fields [1, 1, 1, 1, 1, 1] bs with
    | some ([enabled, fld, test, a, b, action], rest) =>
      if action = 4 ∨ action = 5 then (field 1 rest).map fun p => (.filter enabled fld test a b action p.1, p.2)
      else some (.filter enabled fld test a b action 0, rest)
    | _ => none
  | .parameters =>
    if i < 26 then (field (paramSize i) bs).map fun p => (.param p.1, p.2)
    else if i < 28 then match fields [2, 1] bs with
      | some ([route, mode], rest) => some (.common route mode, rest)
      | _ => none
    else some (.bad, bs)
  | .addresses => (field 1 bs).map fun p => (.address p.1, p.2)

/-- R122: an entry of a table at an index as bytes. -/
def entryBytes (i : Nat) : Entry → List Byte
  | .zoneMap none => b1 0
  | .zoneMap (some (p, l, h, z)) => codes [(1, 1), (1, p), (2, l), (2, h), (1, z)]
  | .zone kind floor stair ver group knock quiet =>
    codes [(1, kind), (1, floor), (1, stair), (1, ver), (1, group), (2, knock), (1, quiet)]
  | .floor occupancy mask rack => codes [(2, occupancy), (1, mask), (1, rack)]
  | .stair capacity window mode => codes [(1, capacity), (1, window), (1, mode)]
  | .bank iface pf pz af az shaft timeout =>
    codes [(1, iface), (1, pf), (2, pz), (1, af), (2, az), (2, shaft), (2, timeout)]
  | .car none => b1 0
  | .car (some (bank, index, served)) => codes [(1, 1), (1, bank), (1, index), (8, served.toNat)]
  | .doorPoint none => b1 0
  | .doorPoint (some (c, o, f, st)) => codes [(1, 1), (1, c), (1, o), (1, f), (1, st)]
  | .station none => b1 0
  | .station (some (a, k)) => codes [(1, 1), (1, a), (1, k)]
  | .messages alert evac a b c d refuge =>
    codes [(1, alert), (1, evac), (1, a), (1, b), (1, c), (1, d), (1, refuge)]
  | .tenant none => b1 0
  | .tenant (some (c, fs)) => codes [(1, 1), (1, c), (8, fs.toNat)]
  | .filter enabled fld test a b action k =>
    codes [(1, enabled), (1, fld), (1, test), (1, a), (1, b), (1, action)] ++
      (if action = 4 ∨ action = 5 then b1 k else [])
  | .param v => be (paramSize i) v
  | .common route mode => codes [(2, route), (1, mode)]
  | .address v => b1 v
  | .bad => []

/-- R169: `n` entries of a table from an index on, taken from a payload; none when it carries too few bytes. -/
def parseEntries (t : TableId) : Nat → Nat → List Byte → Option (List Entry)
  | _, 0, _ => some []
  | i, n + 1, bs => (parseEntry t i bs).bind fun p => (parseEntries t (i + 1) n p.2).map (p.1 :: ·)

end Sys2Proof.Machine
end

