-- ==== Sys2Proof/Machine/Ops.lean ====
section
/-! DEFINITION. The operations the blocks share: the event log (R161), the report queue (R124, R125), the early-poll list
(R151), looking up a station (R148), the return of the regime to QUIESCENT (R27), and walking a table in record order. -/

namespace Sys2Proof.Machine

/-- Every index of a table in record order, `f` applied at each to the state the ones before left. -/
def forEach (n : Nat) (f : Fin n → State → State) (s : State) : State :=
  (List.finRange n).foldl (fun s i => f i s) s

/-- The first index of a table whose record satisfies `p`. -/
def first? {n : Nat} (p : Fin n → Bool) : Option (Fin n) := (List.finRange n).find? p

/-- A table changed record by record, each with its index. -/
def mapIdx {α : Type} {n : Nat} (f : Fin n → α → α) (t : Tbl α n) : Tbl α n :=
  ⟨List.zipWith f (List.finRange n) t.rows, by
    rw [List.length_zipWith, List.length_finRange, t.size, Nat.min_self]⟩

/-- R160: the present timestamp. -/
def now (s : State) : Stamp := s.log.stamp

/-! ### The event log -/

/-- R152: an append or a change of regime returns the line to BRISK and, in QUIESCENT, starts the quiet-line timer at
full. -/
def wakeLine (s : State) : State :=
  { s with sline := { s.sline with
      mode := .brisk
      quietTimer := if s.regime.state = .quiescent then some (ticks 600) else s.sline.quietTimer } }

/-- R161, R163: the log with one record more: the next sequence number, the oldest record overwritten at 256, the
watermark count up by one and never above 256. -/
def appendRecord (l : EventLog) (kind : EventKind) (subject : Subject) (detail : Detail) : EventLog :=
  let records := l.records ++ [{ seq := l.nextSeq, stamp := l.stamp, kind, subject, detail }]
  { l with
    records := records.drop (records.length - 256)
    nextSeq := l.nextSeq + 1
    sinceRead := min 256 (l.sinceRead + 1) }

/-- R161: append a record; the Services Line Scheduler sees every append (R152), and an append that brings the count to
the watermark is the onset of LOG WATERMARK (R163, R165). -/
def appendLog (kind : EventKind) (subject : Subject) (detail : Detail) (s : State) : State :=
  wakeLine (noteOnset .logWatermark s { s with log := appendRecord s.log kind subject detail })

/-! ### The report queue -/

/-- R124: the queue with an entry placed after every entry of its own class or a more urgent one. -/
def place (e : QEntry) (q : List QEntry) : List QEntry :=
  q.takeWhile (fun x => x.cls ≤ e.cls) ++ e :: q.dropWhile (fun x => x.cls ≤ e.cls)

/-- R129: the turn timeout preset to 5 s and stopped. -/
def presetTimeout : Stopwatch := { left := ticks 5, running := false }

/-- R129: the turn timeout counting down from its preset. -/
def runningTimeout : Stopwatch := { left := ticks 5, running := true }

/-- R124, R129: an entry placed in the queue; in an empty queue with no turn in progress it starts the turn timeout. -/
def placeEntry (e : QEntry) (p : Port) : Port :=
  { p with
    queue := place e p.queue
    timeout := if p.queue = [] ∧ p.turn = none then runningTimeout else p.timeout }

/-- R125: an entry offered to the queue.  The least urgent entry held stands last, the youngest of its class.  R125 does not
except an entry whose frame is on the line: it too is dropped and logged, though its frame is sent whole (R128; DESIGN
CHOICE, log entry 64). -/
def offer (e : QEntry) (s : State) : State :=
  if s.port.queue.length < 32 then { s with port := placeEntry e s.port }
  else match s.port.queue.getLast? with
    | none => s
    | some w =>
      if e.cls < w.cls then
        appendLog .reportLost .reportQueue (.reportLost (payloadKind w.payload) w.cls true)
          { s with port := { s.port with queue := place e s.port.queue.dropLast } }
      else appendLog .reportLost .reportQueue (.reportLost (payloadKind e.payload) e.cls false) s

/-- R124: queue a report of a class to a destination, stamped with the present timestamp. -/
def queueReport (dest : Byte) (cls : Nat) (p : Payload) (s : State) : State :=
  offer { dest, cls, payload := p, stamp := now s, sending := false } s

/-! ### Stations -/

/-- R148: the record in use at an S-line address. -/
def stationAt (s : State) (a : Byte) : Option (Fin 48) :=
  first? fun i => (s.sline.stations.get i).any fun st => st.address == a

/-- R148: whether the station at an address is LOST; an address with no record in use counts as not LOST. -/
def stationLost (s : State) (a : Byte) : Bool :=
  ((stationAt s a).bind s.sline.stations.get).any (·.lost)

/-- Whether the station table holds a record of a kind at an address (R74, R93, R112). -/
def hasStation (s : State) (a : Byte) (k : StationKind) : Bool :=
  ((stationAt s a).bind s.sline.stations.get).any (·.kind == k)

/-- R151: a station joins the tail of the early-poll list unless it is on it. -/
def joinEarly (i : Fin 48) (s : State) : State :=
  if i ∈ s.sline.early then s else { s with sline := { s.sline with early := s.sline.early ++ [i] } }

/-! ### The floor table -/

/-- R28: a floor exists for the plan when its number is below NF. -/
def inUse (s : State) (f : Fin 64) : Bool := decide (f.val < s.params.nf)

/-- R28: the floors in use. -/
def floorsInUse (s : State) : FloorSet := setOf (inUse s)

/-- R93: the floors a rack serves: those in use whose record names it. -/
def rackFloors (s : State) (r : Fin 4) : FloorSet :=
  setOf fun f => inUse s f && (s.seq.floors.get f).rack == r

/-! ### Racks' countdowns and the return to QUIESCENT -/

/-- R95: the duration a countdown code gives, in 10 ms units; code 0 is disabled. -/
def countdownTicks (code : Nat) : Nat :=
  if code ≤ 60 then ticks (code * 10) else ticks ((code - 50) * 60)

/-- R95: a rack with its countdown at full. -/
def fullCountdown (r : Rack) : Rack := { r with countdown := countdownTicks r.code }

/-- R22: a change of regime: the state, the REGIME STATE record and the class 1 report; and the line returns to BRISK
(R152). -/
def setRegime (st : Regime) (cause : RegimeCause) (s : State) : State :=
  let s := wakeLine { s with regime := { s.regime with state := st } }
  queueReport 0 1 (.regime st cause) (appendLog .regimeState .none (.regime st cause) s)

/-- R27, R96: the return to QUIESCENT; the countdowns start from full.  The other job blocks leave their records as they
stand (R54, R71, R83, R115). -/
def returnQuiescent (s : State) : State :=
  let s := setRegime .quiescent .completion s
  { s with ann := { s.ann with racks := s.ann.racks.map fullCountdown } }

/-- R27: the Announcement Scheduler sets ALL-CLEAR DONE; the second of the two flags ends RESTORING. -/
def setAllClearDone (s : State) : State :=
  if s.regime.allClearDone then s
  else
    let s := { s with regime := { s.regime with allClearDone := true } }
    if s.regime.state = .restoring ∧ s.regime.relockDone = true then returnQuiescent s else s

/-- R27: the Stair Door Unit sets RELOCK DONE; the second of the two flags ends RESTORING. -/
def setRelockDone (s : State) : State :=
  if s.regime.relockDone then s
  else
    let s := { s with regime := { s.regime with relockDone := true } }
    if s.regime.state = .restoring ∧ s.regime.allClearDone = true then returnQuiescent s else s

/-! ### Store writes (R171) -/

/-- R171: a store write begins, or waits behind the one in progress; two that arise in one event are written in the order
they arise (DEDUCED, log entry 67). -/
def beginWrite (w : StoreWrite) (s : State) : State :=
  { s with mgmt := { s.mgmt with writes := s.mgmt.writes ++ [w] } }

/-- R171: whether a store write is in progress. -/
def writing (s : State) : Bool := !s.mgmt.writes.isEmpty

/-- R16, R171: what a write of the whole isolation list carries, entry by entry: the scope at each of its 64 places, a
place past the end empty.  That an entry is known by its place in the list, so that a list cut by a supply failure is
found place by place old or new, is the model's reading (DEDUCED, log entry 39). -/
def isolationItems (s : State) : List StoreItem :=
  (List.finRange 64).map fun i => .isolation i ((s.zones.isolation.map (·.scope))[i.val]?)

end Sys2Proof.Machine
end

