-- ==== Sys2Proof/Machine/Announce.lean ====
section
/-! DEFINITION. The Announcement Scheduler: chapter 5.

The arbiter (R103, R106, R109) is run once at the end of each event that can give it work, on the state the whole event
has left (log entry 10). -/

namespace Sys2Proof.Machine

/-! ### Records -/

def setJob (j : Fin 16) (x : Option Job) (s : State) : State :=
  { s with ann := { s.ann with jobs := s.ann.jobs.set j x } }

def setChannel (k : Fin 2) (c : Channel) (s : State) : State :=
  { s with ann := { s.ann with channels := s.ann.channels.set k c } }

def setRack (r : Fin 4) (x : Rack) (s : State) : State :=
  { s with ann := { s.ann with racks := s.ann.racks.set r x } }

/-- R98, R151: the Scheduler reports a rack's station for the early-poll list, which it joins as the event ends. -/
def noteRack (r : Fin 4) (s : State) : State :=
  noteOwner (s.ann.racks.get r).address s

/-- R112: the page status of a tenant entry; a change of it is noted for the console's early poll (R151). -/
def setStatus (e : Fin 16) (st : PageStatus) (s : State) : State :=
  let u := { s with ann := { s.ann with tenants := s.ann.tenants.upd e (·.map fun t => { t with status := st }) } }
  match s.ann.tenants.get e with
  | some t => if t.status = st then u else noteOwner t.console u
  | none => u

/-- R113: the page status of the entry a class 5 job belongs to. -/
def setSourceStatus (src : Source) (st : PageStatus) (s : State) : State :=
  match src with
  | .liveTenant e => setStatus e st s
  | _ => s

/-- The class a job is compared by: a lower number is more urgent (R99). -/
def rank (c : JobClass) : Nat := c.ctorIdx

/-- The job a channel holds. -/
def channelJob (s : State) (k : Fin 2) : Option Job := (s.ann.channels.get k).job.bind s.ann.jobs.get

/-- R99: the lowest free slot. -/
def freeSlot (s : State) : Option (Fin 16) := first? fun j => (s.ann.jobs.get j).isNone

/-- The slot of the live talk, if one exists (R110). -/
def liveSlot (s : State) : Option (Fin 16) := first? fun j => (s.ann.jobs.get j).any (·.cls == .liveBrigade)

/-- R93: the floors that are served: in use, their rack fitted and not in FAULT. -/
def served (s : State) : FloorSet :=
  setOf fun f =>
    let r := s.ann.racks.get (s.seq.floors.get f).rack
    inUse s f && r.address != 0 && r.power != .fault

/-- R107: the racks of a floor set. -/
def involved (s : State) (held : FloorSet) : List (Fin 4) :=
  (List.finRange 4).filter fun r => (rackFloors s r &&& held) != 0

/-- R99: the rest after a play of a class, in 10 ms units; classes 1 to 4 have one. -/
def restTicks (s : State) : JobClass → Nat
  | .evacuate => ticks (s.params.rest.get 0)
  | .alert => ticks (s.params.rest.get 1)
  | .allClear => ticks (s.params.rest.get 2)
  | .test => ticks (s.params.rest.get 3)
  | _ => 0

/-- R99: a new job: WAITING, last play end never. -/
def newJob (cls : JobClass) (source : Source) (target : FloorSet) (repeats : Repeats) (hold : Option Stamp) : Job :=
  { cls, source, target, repeats, state := .waiting, channel := none, lastEnd := none, rest := none, hold, pageLimit := none }

/-! ### Standing needs (R92, R100) -/

/-- R92: the present stairs of a floor's mask. -/
def presentStairs (s : State) (f : Fin 64) : List (Fin 4) :=
  (List.finRange 4).filter fun st =>
    (s.seq.floors.get f).mask.getLsbD st.val && decide (0 < (s.seq.stairs.get st).capacity)

/-- R92: the evacuation message of a floor. -/
def evacuationMessage (s : State) (f : Fin 64) : Fin 64 :=
  let row := s.ann.rows.get f
  let serving := (presentStairs s f).filter fun st => (s.seq.stairs.get st).inService
  let withdrawn := (presentStairs s f).filter fun st => !(s.seq.stairs.get st).inService
  match serving with
  | [] => row.refuge
  | [st] =>
    if withdrawn = [] then row.evacuate
    else if row.useStair.get st = 63 then row.evacuate else row.useStair.get st
  | _ => row.evacuate

/-- R92: the standing message a floor needs, if any. -/
def need (s : State) (f : Fin 64) : Option Standing :=
  let of := fun (evac : Bool) (m : Fin 64) => if m = 63 then none else some { evac, msg := m : Standing }
  if inUse s f then
    match (s.seq.floors.get f).state with
    | .normal => none
    | .alert => of false (s.ann.rows.get f).alert
    | .evacuate => of true (evacuationMessage s f)
  else none

/-- Class order, then message number order (R100). -/
def standingRank (p : Standing) : Nat := (if p.evac then 0 else 64) + p.msg.val

/-- A pair put in its place among needed pairs. -/
def insertPair (p : Standing) : List Standing → List Standing
  | [] => [p]
  | q :: rest =>
    if p = q then q :: rest
    else if standingRank p < standingRank q then p :: q :: rest
    else q :: insertPair p rest

/-- R100: the distinct pairs of class and message needed, in order. -/
def neededPairs (s : State) : List Standing :=
  ((List.finRange 64).filterMap (need s)).foldl (fun ps p => insertPair p ps) []

/-- R100: the floors needing a pair. -/
def neededFor (s : State) (p : Standing) : FloorSet := setOf fun f => need s f == some p

/-- R100: the pair a standing job is known by. -/
def standingOf (j : Job) : Option Standing :=
  match j.cls, j.source with
  | .evacuate, .message m => some { evac := true, msg := m }
  | .alert, .message m => some { evac := false, msg := m }
  | _, _ => none

/-- R99, R100: a standing job for a pair. -/
def standingJob (s : State) (p : Standing) : Job :=
  newJob (if p.evac then .evacuate else .alert) (.message p.msg) (neededFor s p) .continuous none

/-- R99: an owed pair takes a free slot, unless its floors no longer need it. -/
def makeOwed (s : State) (p : Standing) : State :=
  if neededFor s p = 0 then { s with ann := { s.ann with owed := s.ann.owed.erase p } }
  else match freeSlot s with
    | some j => setJob j (some (standingJob s p)) { s with ann := { s.ann with owed := s.ann.owed.erase p } }
    | none => s

/-- R99: the owed pairs take the slots that have become free, first in class order, then message number order. -/
def fillOwed (s : State) : State := s.ann.owed.foldl makeOwed s

/-! ### Channels and plays (R104, R105, R107 to R109) -/

/-- R107, R108: queue the report of a channel as it stands.  R108 names the end cause alone for the report of a play's end;
that it carries the fields of R107 too, with the floors held as the play ends, and the cause after them, is the model's
choice (DESIGN CHOICE, log entry 57). -/
def reportChannel (k : Fin 2) (ended : Option EndCause) (s : State) : State :=
  let c := s.ann.channels.get k
  let j := channelJob s k
  queueReport 0 5 (.channel k c.number c.job (j.map (·.cls)) (j.map (·.source)) c.held ended) s

/-- R103: a channel gone to IDLE; its play number stays. -/
def idleChannel (k : Fin 2) (s : State) : State :=
  setChannel k { s.ann.channels.get k with
    state := .idle, job := none, held := 0, warm := none, play := none, marks := 0 } s

/-- R108: every play end: each rack still involved has its countdown set to full, a report carries the cause, and the
channel goes to IDLE. -/
def endPlay (k : Fin 2) (cause : EndCause) (s : State) : State :=
  let held := (s.ann.channels.get k).held
  let s := (involved s held).foldl (fun s r => setRack r (fullCountdown (s.ann.racks.get r)) s) s
  idleChannel k (reportChannel k (some cause) s)

/-- R99: a job leaves the table; the free slot goes to an owed pair. -/
def dropJob (j : Fin 16) (s : State) : State := fillOwed (setJob j none s)

/-- R111: the live talk's job leaves the table and the limit stops. -/
def dropLive (j : Fin 16) (s : State) : State :=
  dropJob j { s with ann := { s.ann with liveLimit := none } }

/-- A job gone back to WAITING with its repeats and last play end unchanged (R104, R109). -/
def toWaiting (x : Job) : Job := { x with state := .waiting, channel := none }

/-- R114: the hold deadline 30 s from now. -/
def holdFrom (t : Stamp) : Stamp := t + 3000

/-- R109: the job's repeats after a play that ended COMPLETE or TIMEOUT. -/
def lessOne : Repeats → Repeats
  | .times n => .times (n - 1)
  | .continuous => .continuous

/-- R109, R111, R114: what becomes of a job whose play has ended.  R114 gives a tenant play cut by a more urgent job or by
the live talk back to WAITING with a new hold deadline; one that a load cuts in full (R28, R29) is taken the same way
(DESIGN CHOICE, log entry 60). -/
def afterPlay (cause : EndCause) (j : Fin 16) (s : State) : State :=
  match s.ann.jobs.get j with
  | none => s
  | some x =>
    match cause with
    | .complete | .timeout =>
      let x := { x with lastEnd := some (now s), repeats := lessOne x.repeats, channel := none }
      if x.repeats = .times 0 then
        let s := dropJob j s
        if x.cls = .allClear then setAllClearDone s else s
      else if restTicks s x.cls = 0 then setJob j (some { x with state := .waiting }) s
      else setJob j (some { x with state := .resting, rest := some (restTicks s x.cls) }) s
    | .removed => dropJob j s
    | .dropped =>
      match x.cls with
      | .liveBrigade => dropLive j s
      | .tenant => dropJob j (setSourceStatus x.source .ended s)
      | _ => setJob j (some (toWaiting x)) s
    | .cut =>
      match x.cls with
      | .liveBrigade => dropLive j s
      | .tenant =>
        setSourceStatus x.source .waiting
          (setJob j (some { toWaiting x with hold := some (holdFrom (now s)), pageLimit := none }) s)
      | _ => setJob j (some (toWaiting x)) s

/-- R108: a channel's play ends, and its job is dealt with. -/
def finishPlay (k : Fin 2) (cause : EndCause) (s : State) : State :=
  match (s.ann.channels.get k).job with
  | none => endPlay k cause s
  | some j => afterPlay cause j (endPlay k cause s)

/-- R104, R105, R106: a warm-up stops; the job returns to WAITING, or its live talk ends. -/
def stopWarm (k : Fin 2) (s : State) : State :=
  match (s.ann.channels.get k).job with
  | none => idleChannel k s
  | some j =>
    match s.ann.jobs.get j with
    | none => idleChannel k s
    | some x =>
      if x.cls = .liveBrigade then dropLive j (idleChannel k s)
      else setJob j (some (toWaiting x)) (idleChannel k s)

/-- Whether a channel carries a message play (R107, R108). -/
def messagePlay (s : State) (k : Fin 2) : Bool :=
  (s.ann.channels.get k).state == .playing && (channelJob s k).any fun j => match j.source with
    | .message _ => true
    | _ => false

/-- R108: a message play whose involved racks all have their ended marks set. -/
def allEnded (s : State) (k : Fin 2) : Bool :=
  messagePlay s k && (involved s (s.ann.channels.get k).held).all fun r => (s.ann.channels.get k).marks.getLsbD r.val

/-- R108: a message play ends COMPLETE when every rack still involved has finished. -/
def checkComplete (k : Fin 2) (s : State) : State :=
  if allEnded s k then finishPlay k .complete s else s

/-- R104, R108: floors leave a channel's held set by a cut or a drop; a channel left with none ends its play with that
cause or stops its warm-up. -/
def shrink (cause : EndCause) (k : Fin 2) (floors : FloorSet) (s : State) : State :=
  let c := s.ann.channels.get k
  if c.state = .idle ∨ c.held &&& floors = 0 then s
  else
    let s := setChannel k { c with held := c.held &&& ~~~ floors } s
    if c.held &&& ~~~ floors = 0 then
      if c.state = .playing then finishPlay k cause s else stopWarm k s
    else checkComplete k s

/-- R99: a job is removed; one that is PLAYING ends its play REMOVED or stops its warm-up. -/
def removeJob (j : Fin 16) (s : State) : State :=
  match (s.ann.jobs.get j).bind (·.channel) with
  | none => dropJob j s
  | some k =>
    if (s.ann.channels.get k).state = .playing then dropJob j (endPlay k .removed s)
    else dropJob j (idleChannel k s)

/-- R107: a play begins on a channel that holds a job and floors; the stations of its racks join the early-poll list. -/
def beginPlay (k : Fin 2) (s : State) : State :=
  let c := s.ann.channels.get k
  match c.job, channelJob s k with
  | some j, some x =>
    let isMessage := match x.source with
      | .message _ => true
      | _ => false
    let s := setChannel k { c with state := .playing, number := c.number + 1, warm := none, marks := 0
                                   play := if isMessage then some (ticks 180) else none } s
    let s := if x.cls = .tenant then
        setSourceStatus x.source .granted (setJob j (some { x with hold := none, pageLimit := some (ticks 120) }) s)
      else s
    reportChannel k none ((involved s c.held).foldl (fun s r => noteRack r s) s)
  | _, _ => s

/-- R105: whether every rack of a floor set is ON. -/
def allOn (s : State) (held : FloorSet) : Bool := (involved s held).all fun r => (s.ann.racks.get r).power == .on

/-- R96, R98, R105: a rack in STANDBY is commanded ON and goes to WAKING, and its station joins the early-poll list.  It does
so though its station is LOST, where R93 calls FAULT the state of a rack commanded ON (DEDUCED, log entry 65). -/
def wakeRack (r : Fin 4) (s : State) : State :=
  let x := s.ann.racks.get r
  if x.power = .standby then noteRack r (setRack r { x with commanded := .on, power := .waking } s) else s

/-- R105: a channel that has taken a job plays at once or warms its racks. -/
def startChannel (k : Fin 2) (s : State) : State :=
  let c := s.ann.channels.get k
  if allOn s c.held then beginPlay k s
  else
    let s := (involved s c.held).foldl (fun s r => wakeRack r s) s
    setChannel k { c with state := .warming, warm := some (ticks s.params.warmUp) } s

/-! ### The arbiter (R103, R106, R109) -/

/-- The other channel. -/
def other (k : Fin 2) : Fin 2 := if k = 0 then 1 else 0

/-- R103: the floors a channel withholds from a job on the other: those it holds for an equal or more urgent class. -/
def withheld (s : State) (k : Fin 2) (x : Job) : FloorSet :=
  match channelJob s (other k) with
  | some y => if rank y.cls ≤ rank x.cls then (s.ann.channels.get (other k)).held else 0
  | none => 0

/-- R103: the floors open to a job on a channel. -/
def openFloors (s : State) (k : Fin 2) (x : Job) : FloorSet := x.target &&& served s &&& ~~~ withheld s k x

/-- R103: a WAITING job with open floors on a channel. -/
def eligible (s : State) (k : Fin 2) (j : Fin 16) : Bool :=
  (s.ann.jobs.get j).any fun x => x.state == .waiting && x.cls != .liveBrigade && openFloors s k x != 0

/-- R103, R160: lowest class, then the job whose last play ended earliest, never counting as earliest, then the lower
slot, as one number. -/
def jobKey (s : State) (j : Fin 16) : Nat :=
  match s.ann.jobs.get j with
  | none => 0
  | some x => (rank x.cls * 2 ^ 33 + x.lastEnd.elim 0 fun t => 2 ^ 32 - elapsed (now s) t) * 16 + j.val

/-- The slot of least key. -/
def leastKey (s : State) : List (Fin 16) → Option (Fin 16)
  | [] => none
  | j :: js =>
    match leastKey s js with
    | none => some j
    | some i => if jobKey s i < jobKey s j then some i else some j

/-- R103: the job the arbiter takes for a channel. -/
def pick (s : State) (k : Fin 2) : Option (Fin 16) := leastKey s ((List.finRange 16).filter (eligible s k))

/-- R103: a channel given to a job, with its open floors; the floors shared with a less urgent job are cut from the
other channel. -/
def give (k : Fin 2) (j : Fin 16) (s : State) : State :=
  match s.ann.jobs.get j with
  | none => s
  | some x =>
    let floors := openFloors s k x
    let s := setJob j (some { x with state := .playing, channel := some k }) s
    let s := setChannel k { s.ann.channels.get k with state := .warming, job := some j, held := floors } s
    startChannel k (shrink .cut (other k) floors s)

/-- R103: an IDLE channel filled, CH0 not while a live talk exists. -/
def fillChannel (k : Fin 2) (s : State) : Option State :=
  if (s.ann.channels.get k).state = .idle ∧ (k = 1 ∨ liveSlot s = none) then (pick s k).map fun j => give k j s
  else none

/-- R109: a class 3 or 4 job that is WAITING with no served floor in its target. -/
def unplayable (s : State) (j : Fin 16) : Bool :=
  (s.ann.jobs.get j).any fun x =>
    x.state == .waiting && (x.cls == .allClear || x.cls == .test) && x.target &&& served s == 0

/-- R109: an unplayable job is removed as though its last play had ended. -/
def removeUnplayable (s : State) : Option State :=
  (first? (unplayable s)).map fun j =>
    let isAllClear := (s.ann.jobs.get j).any (·.cls == .allClear)
    let s := dropJob j s
    if isAllClear then setAllClearDone s else s

/-- R106: whether a WARMING channel's job is less urgent than a WAITING job eligible for it. -/
def takeable (s : State) (k : Fin 2) : Bool :=
  (s.ann.channels.get k).state == .warming && (channelJob s k).any fun y =>
    (List.finRange 16).any fun j => eligible s k j && (s.ann.jobs.get j).any fun x => decide (rank x.cls < rank y.cls)

/-- R106: the WARMING channel that is taken: the one whose job has the higher class, CH1 where they are equal. -/
def takenChannel (s : State) : Option (Fin 2) :=
  match takeable s 0, takeable s 1 with
  | false, false => none
  | true, false => some 0
  | false, true => some 1
  | true, true =>
    match channelJob s 0, channelJob s 1 with
    | some x, some y => if rank y.cls < rank x.cls then some 0 else some 1
    | _, _ => some 1

/-- One thing the arbiter finds to do, if any. -/
def arbiterStep (s : State) : Option State :=
  match removeUnplayable s with
  | some t => some t
  | none =>
    match fillChannel 0 s with
    | some t => some t
    | none =>
      match fillChannel 1 s with
      | some t => some t
      | none => (takenChannel s).map fun k => stopWarm k s

/-- The arbiter, until it finds nothing more to do. -/
def arbiterRun : Nat → State → State
  | 0, s => s
  | n + 1, s =>
    match arbiterStep s with
    | none => s
    | some t => arbiterRun n t

/-- R103, R106, R109: the arbiter.  Each of its steps removes a job, fills a channel or hands a channel to a more urgent
class, so it comes to rest well within 64. -/
def arbiter (s : State) : State := arbiterRun 64 s

/-! ### Standing jobs in line with the floor table (R100) -/

/-- R100 step 1: the target of a standing job replaced; a job left with none is removed, and floors that left are cut
from its play. -/
def realignJob (j : Fin 16) (s : State) : State :=
  match s.ann.jobs.get j with
  | none => s
  | some x =>
    match standingOf x with
    | none => s
    | some p =>
      if neededFor s p = 0 then removeJob j s
      else
        let s' := setJob j (some { x with target := neededFor s p }) s
        match x.channel with
        | some k => shrink .cut k ((s.ann.channels.get k).held &&& ~~~ neededFor s p) s'
        | none => s'

/-- R100: whether a pair has its standing job. -/
def hasStanding (s : State) (p : Standing) : Bool :=
  (List.finRange 16).any fun j => (s.ann.jobs.get j).any fun x => standingOf x == some p

/-- R100 steps 2 and 3: a job made for a needed pair without one, or the pair owed and JOB TABLE FULL logged. -/
def makeStanding (s : State) (p : Standing) : State :=
  if hasStanding s p then s
  else match freeSlot s with
    | some j => setJob j (some (standingJob s p)) { s with ann := { s.ann with owed := s.ann.owed.erase p } }
    | none => appendLog .jobTableFull .none (.standing p) { s with ann := { s.ann with owed := insertPair p s.ann.owed } }

/-- R100: the standing jobs brought into line with the floor table.  A pair that is no longer needed is no longer owed; a
pair still owed takes the first slot that step 1 frees (R99), and step 3 takes one left without a slot as owed again (log
entry 27). -/
def realign (s : State) : State :=
  let owed := s.ann.owed.filter fun p => neededFor s p != 0
  let s := forEach 16 realignJob { s with ann := { s.ann with owed } }
  (neededPairs s).foldl makeStanding s

/-- R100: a floor change notice; outside ACTIVE the Scheduler does nothing with it (R115). -/
def annNotice (s : State) : State := if s.regime.state = .active then arbiter (realign s) else s

/-! ### The regime (R96, R101, R115) -/

/-- R101 step 1: a class 3, 4 or 5 job is removed; a class 5 job sends its console to ENDED. -/
def clearForRegime (j : Fin 16) (s : State) : State :=
  match s.ann.jobs.get j with
  | some x =>
    if rank x.cls ≥ 3 then
      let s := removeJob j s
      if x.cls = .tenant then setSourceStatus x.source .ended s else s
    else s
  | none => s

/-- R96: every fitted rack in STANDBY is commanded ON. -/
def wakeFitted (s : State) : State :=
  forEach 4 (fun r s => if (s.ann.racks.get r).address = 0 then s else wakeRack r s) s

/-- R101: the transition to ACTIVE; the jobs of one step are taken in slot order (log entry 33). -/
def annEntry (s : State) : State := arbiter (realign (wakeFitted (forEach 16 clearForRegime s)))

/-- R115: a standing job is removed. -/
def clearStanding (j : Fin 16) (s : State) : State :=
  if (s.ann.jobs.get j).any fun x => (standingOf x).isSome then removeJob j s else s

/-- R115: the transition from ACTIVE to RESTORING. -/
def annReset (s : State) : State :=
  let s := forEach 16 clearStanding { s with ann := { s.ann with owed := [] } }
  if s.params.allClear = 63 then arbiter (setAllClearDone s)
  else match freeSlot s with
    | some j => arbiter (setJob j (some (newJob .allClear (.message s.params.allClear) (floorsInUse s) (.times 2) none)) s)
    | none => arbiter s

/-! ### Racks (R94, R95, R97) -/

/-- R95, R97: whether a channel in WARMING or PLAYING holds a floor of a rack. -/
def rackHeld (s : State) (r : Fin 4) : Bool :=
  (List.finRange 2).any fun k =>
    (s.ann.channels.get k).state != .idle && ((s.ann.channels.get k).held &&& rackFloors s r) != 0

/-- R95: whether a rack's countdown runs. -/
def countdownRuns (s : State) (r : Fin 4) : Bool :=
  let x := s.ann.racks.get r
  s.regime.state == .quiescent && x.code != 0 && x.power == .on && x.address != 0 && !rackHeld s r

/-- R94: queue the report of a rack, whose record stands in the table. -/
def reportRack (r : Fin 4) (x : Rack) (s : State) : State :=
  queueReport 0 5 (.rack r x.power x.commanded x.reported x.countdown (countdownRuns s r)) s

/-- R94: a rack's record replaced; entering or leaving FAULT is logged and reported, and a rack that becomes ON from
another state has its countdown set to full. -/
def changeRack (r : Fin 4) (cause : RackFaultCause) (x : Rack) (s : State) : State :=
  let old := s.ann.racks.get r
  let x := if x.power = .on ∧ old.power ≠ .on then fullCountdown x else x
  let s := setRack r x s
  if x.power = .fault ∧ old.power ≠ .fault then reportRack r x (appendLog .rackFault (.rack r) (.rackFault cause) s)
  else if old.power = .fault ∧ x.power ≠ .fault then reportRack r x (appendLog .rackFault (.rack r) (.rackFault .cleared) s)
  else s

/-- R108: a rack's floors dropped from any play or warm-up, CH0 before CH1 (log entry 33). -/
def dropRack (r : Fin 4) (s : State) : State :=
  forEach 2 (fun k s => shrink .dropped k (rackFloors s r) s) s

/-- R94: the power state after a reply. -/
def powerAfter (p : Power) (reported : ReportedPower) : Power :=
  match p, reported with
  | .waking, .on => .on
  | .waking, _ => .waking
  | .on, .on => .on
  | .on, _ => .waking
  | .fault, .on => .on
  | .fault, _ => .fault
  | .standby, _ => .standby

/-- R94, R122: an ended number of a reply: 0 to 255, none as 256; another code is a free value (log entry 5). -/
def endedOf (code : Nat) : Option Byte :=
  if code ≤ 255 then some (BitVec.ofNat 8 code) else if code = 256 then none else Config.endedOfBadCode code

/-- R94: the fields of a rack reply, if it carries them and its reported power names one of the three values. -/
def rackFields (payload : List Byte) : Option (ReportedPower × Option Byte × Option Byte) :=
  match payload with
  | p :: a :: b :: c :: d :: _ =>
    (ofCode reportedPowers p.toNat).map fun p => (p, endedOf (ofBE [a, b]), endedOf (ofBE [c, d]))
  | _ => none

/-- R108: an ended number taken for a channel's message play sets the rack's mark. -/
def takeEnded (r : Fin 4) (k : Fin 2) (n : Option Byte) (s : State) : State :=
  let c := s.ann.channels.get k
  if messagePlay s k = true ∧ n = some c.number ∧ (involved s c.held).contains r = true then
    checkComplete k (setChannel k { c with marks := c.marks ||| BitVec.ofNat 4 (2 ^ r.val) } s)
  else s

/-- R105: a WARMING channel looked at again on a rack reply. -/
def lookAgain (k : Fin 2) (s : State) : State :=
  if (s.ann.channels.get k).state = .warming ∧ allOn s (s.ann.channels.get k).held = true then beginPlay k s else s

/-- R94, R105, R108: a rack's reply. -/
def rackReplyOne (r : Fin 4) (f : ReportedPower × Option Byte × Option Byte) (s : State) : State :=
  let x := s.ann.racks.get r
  let s := changeRack r .cleared
    { x with reported := some f.1, power := powerAfter x.power f.1, ended := (x.ended.set 0 f.2.1).set 1 f.2.2 } s
  forEach 2 lookAgain (takeEnded r 1 f.2.2 (takeEnded r 0 f.2.1 s))

/-- R94: a reply of an amplifier rack station, taken for each rack that names its address. -/
def rackReply (a : Byte) (payload : List Byte) (s : State) : State :=
  match rackFields payload with
  | none => s
  | some f => arbiter (forEach 4 (fun r s => if (s.ann.racks.get r).address = a then rackReplyOne r f s else s) s)

/-- R94: the loss of a rack's station. -/
def rackLost (a : Byte) (s : State) : State :=
  arbiter (forEach 4 (fun r s =>
    let x := s.ann.racks.get r
    if x.address = a ∧ x.power ≠ .standby then dropRack r (changeRack r .stationLost { x with power := .fault } s) else s) s)

/-- R95: a rack's countdown reaches 0; its station joins the early-poll list. -/
def countdownEnd (r : Fin 4) (s : State) : State :=
  if countdownRuns s r then
    noteRack r (setRack r { s.ann.racks.get r with commanded := .standby, power := .standby, countdown := 0 } s)
  else s

/-- R97: a rack is commanded STANDBY once; its station joins the early-poll list, whatever the rack was commanded. -/
def standbyNow (r : Fin 4) (s : State) : State :=
  let x := s.ann.racks.get r
  arbiter (noteRack r (changeRack r .cleared { x with commanded := .standby, power := .standby } s))

/-- R93: a parameters entry that changes a rack's address: its floors are dropped, then it takes its power-on values. -/
def reAddress (r : Fin 4) (a : Byte) (s : State) : State :=
  if (s.ann.racks.get r).address = a then s
  else
    let s := dropRack r s
    let x := s.ann.racks.get r
    arbiter (changeRack r .cleared
      { fullCountdown x with address := a, power := .waking, commanded := .on, ended := Tbl.fill 2 none, reported := none } s)

/-! ### Timers (R105, R108, R109, R111, R114, R102) -/

/-- R105: a rack of a warm-up that is not ON goes to FAULT, and its floors leave every held set.  R105 names the held set
of the channel whose timer ran out, and R108 the plays a rack in FAULT leaves; that its floors leave the other channel's set
while that channel too is WARMING is the model's choice (DESIGN CHOICE, log entry 56). -/
def failRack (s : State) (r : Fin 4) : State :=
  let x := s.ann.racks.get r
  if x.power = .on then s else dropRack r (changeRack r .warmUp { x with power := .fault } s)

/-- R105: a channel's warm-up timer runs out; the racks that fail do so in record order, which R105 leaves open (DEDUCED,
log entry 33). -/
def warmUpEnd (k : Fin 2) (s : State) : State :=
  let c := s.ann.channels.get k
  if c.state = .warming then
    let s := (involved s c.held).foldl failRack s
    arbiter (if (s.ann.channels.get k).state = .warming then beginPlay k s else s)
  else s

/-- R108: a message play's timer runs out. -/
def playEnd (k : Fin 2) (s : State) : State :=
  if (s.ann.channels.get k).state = .playing ∧ (s.ann.channels.get k).play.isSome = true then
    arbiter (finishPlay k .timeout s)
  else s

/-- R109: a RESTING job's rest timer runs out. -/
def restEnd (j : Fin 16) (s : State) : State :=
  match s.ann.jobs.get j with
  | some x => if x.state = .resting then arbiter (setJob j (some { x with state := .waiting, rest := none }) s) else s
  | none => s

/-- R111: the live talk ends. -/
def endLive (s : State) : State :=
  match liveSlot s with
  | some j => arbiter (removeJob j { s with ann := { s.ann with liveLimit := none } })
  | none => { s with ann := { s.ann with liveLimit := none } }

/-- R113, R114: a class 5 job is removed and its console's page status set. -/
def removePage (j : Fin 16) (st : PageStatus) (s : State) : State :=
  match s.ann.jobs.get j with
  | some x => setSourceStatus x.source st (removeJob j s)
  | none => s

/-- R114: the page limit of a GRANTED page runs out. -/
def pageEnd (j : Fin 16) (s : State) : State :=
  if (s.ann.jobs.get j).any fun x => x.cls == .tenant && x.pageLimit.isSome then arbiter (removePage j .ended s) else s

/-- R114: the hold deadline of a page that waits or warms passes. -/
def holdEnd (j : Fin 16) (s : State) : State :=
  if (s.ann.jobs.get j).any fun x => x.cls == .tenant && x.hold.isSome then
    arbiter (appendLog .pageExpired (.jobSlot j) .zero (removePage j .ended s))
  else s

/-- R102: the test timer at the full period, or stopped when the period is 0. -/
def startTest (s : State) : State :=
  { s with ann := { s.ann with
      testTimer := if s.params.testPeriod = 0 then none else some (ticks (s.params.testPeriod * 3600)) } }

/-- R102: whether a class 4 job is in the table. -/
def hasTest (s : State) : Bool := (List.finRange 16).any fun j => (s.ann.jobs.get j).any (·.cls == .test)

/-- R102: the test period timer runs out. -/
def testPeriodEnd (s : State) : State :=
  if s.ann.testTimer = none then s
  else
    let s := startTest s
    if s.regime.state = .quiescent ∧ s.params.testMessage ≠ 63 ∧ hasTest s = false then
      match freeSlot s with
      | some j => arbiter (setJob j (some (newJob .test (.message s.params.testMessage) (floorsInUse s) (.times 1) none)) s)
      | none => appendLog .testDropped .none .zero s
    else s

/-! ### Brigade live talk (R110, R111) -/

/-- R110 step 1: of two slots, the one whose job is removed first to make room: the higher class, then the higher
slot; a slot that is PLAYING or free is never it. -/
def victim (s : State) : Option (Fin 16) :=
  (List.finRange 16).foldl (fun best j =>
    match s.ann.jobs.get j with
    | some x =>
      if x.state = .playing then best
      else match best.bind s.ann.jobs.get with
        | some y => if rank y.cls ≤ rank x.cls then some j else best
        | none => some j
    | none => best) none

/-- R110 step 1: room made for the live talk: a class 4 or 5 job is logged, a standing job owed.  R110 names no record for
the standing job, and the model logs none: JOB TABLE FULL is the record of a pair that found no slot (DESIGN CHOICE, log
entry 43). -/
def makeRoom (s : State) : State :=
  match freeSlot s with
  | some _ => s
  | none =>
    match victim s with
    | none => s
    | some j =>
      match s.ann.jobs.get j with
      | none => s
      | some x =>
        let s := setJob j none s
        match standingOf x with
        | some p => { s with ann := { s.ann with owed := insertPair p s.ann.owed } }
        | none =>
          if x.cls = .test then appendLog .testDropped (.jobSlot j) .zero s
          else if x.cls = .tenant then setSourceStatus x.source .ended (appendLog .pageExpired (.jobSlot j) .zero s)
          else s

/-- R110: LIVE TALK START and its answer. -/
def liveTalkStart (floors : FloorSet) (s : State) : Answer × State :=
  let live := floors &&& served s
  if (liveSlot s).isSome then (.busy, s)
  else if live = 0 then (.noChange, s)
  else
    let s := makeRoom s
    match freeSlot s with
    | none => (.accepted, s)
    | some j =>
      let s := setJob j (some { newJob .liveBrigade .liveBrigade live (.times 1) none with
        state := .playing, channel := some 0 }) s
      let s := { s with ann := { s.ann with liveLimit := some (ticks 300) } }
      let s := shrink .cut 0 (s.ann.channels.get 0).held s
      let s := setChannel 0 { s.ann.channels.get 0 with state := .warming, job := some j, held := live } s
      (.accepted, arbiter (startChannel 0 (shrink .cut 1 live s)))

/-- R111: LIVE TALK END and its answer. -/
def liveTalkEnd (s : State) : Answer × State :=
  if (liveSlot s).isSome then (.accepted, endLive s) else (.noChange, s)

/-! ### Tenant pages (R113, R114) -/

/-- R113: the slot of a tenant entry's page. -/
def pageSlot (s : State) (e : Fin 16) : Option (Fin 16) :=
  first? fun j => (s.ann.jobs.get j).any (·.source == .liveTenant e)

/-- R113: a request judged.  No rule names a field for the detail of the JOB TABLE FULL record of a refused request; it is
0, as for TEST DROPPED and PAGE EXPIRED (DESIGN CHOICE, log entry 46). -/
def judgeRequest (e : Fin 16) (allowed floors : FloorSet) (s : State) : State :=
  let floors := floors &&& allowed &&& floorsInUse s
  if floors = 0 ∨ s.regime.state ≠ .quiescent then setStatus e .refused s
  else match freeSlot s with
    | none => appendLog .jobTableFull .none .zero (setStatus e .refused s)
    | some j =>
      arbiter (setJob j (some (newJob .tenant (.liveTenant e) floors (.times 1) (some (holdFrom (now s)))))
        (setStatus e .waiting s))

/-- R113: a RELEASE. -/
def release (e : Fin 16) (st : PageStatus) (s : State) : State :=
  match st with
  | .idle => s
  | .refused | .ended => setStatus e .idle s
  | .waiting | .granted =>
    match pageSlot s e with
    | some j => arbiter (setStatus e .idle (removeJob j s))
    | none => setStatus e .idle s

/-- R113: the tenant entry in use that names a console. -/
def tenantAt (s : State) (a : Byte) : Option (Fin 16) :=
  first? fun e => (s.ann.tenants.get e).any (·.console == a)

/-- R113: a reply of a tenant console: REQUEST is 0 and carries a floor set, RELEASE is 1. -/
def consoleReply (a : Byte) (payload : List Byte) (s : State) : State :=
  match tenantAt s a with
  | none => s
  | some e =>
    match s.ann.tenants.get e, payload with
    | some t, p :: rest =>
      if p = 0 ∧ 8 ≤ rest.length then
        if t.status = .idle then judgeRequest e t.allowed (BitVec.ofNat 64 (ofBE (rest.take 8))) s else s
      else if p = 1 then release e t.status s
      else s
    | _, _ => s

/-- R114: the loss of a console's station. -/
def consoleLost (a : Byte) (s : State) : State :=
  match tenantAt s a with
  | none => s
  | some e =>
    match pageSlot s e with
    | some j => arbiter (setStatus e .idle (removeJob j s))
    | none => setStatus e .idle s

/-- R28, R29, R104: floors taken out of the target of every job and cut from any channel that holds them. -/
def takeFloorsOut (floors : FloorSet) (s : State) : State :=
  let s := { s with ann := { s.ann with
    jobs := s.ann.jobs.map fun j => j.map fun x => { x with target := x.target &&& ~~~ floors } } }
  forEach 2 (fun k s => shrink .cut k floors s) s

end Sys2Proof.Machine
end

