-- ==== Sys2Proof/Machine/Classifier.lean ====
section
/-! DEFINITION. The Frame Classifier: chapter 7. -/

namespace Sys2Proof.Machine

/-- R132: a destination "to the bridge". -/
def toBridge (s : State) (dst : Byte) : Bool := dst == s.addrs.own || dst == 0

/-- R133: a source in the brigade address list. -/
def inBrigade (s : State) (src : Byte) : Bool := s.addrs.brigade.get 0 == src || s.addrs.brigade.get 1 == src

/-! ### The S forward queue (R142, R144) -/

/-- R142: an entry placed after every entry of its own class or a more urgent one. -/
def placeForward (e : Forward) (q : List Forward) : List Forward :=
  q.takeWhile (fun x => x.frame.cls ≤ e.frame.cls) ++ e :: q.dropWhile (fun x => x.frame.cls ≤ e.frame.cls)

/-- R142: a frame offered to the S forward queue. -/
def offerForward (f : Frame) (s : State) : State :=
  if 16 ≤ s.cls.queue.length ∨ s.mgmt.wait ≠ none then
    appendLog .forwardDropped (.stationAddress f.dst) (.sourceClass f.src f.cls) s
  else
    { s with cls := { s.cls with
        queue := placeForward { frame := f, arrival := now s, onLine := false, late := false } s.cls.queue } }

/-- R144: the lifetime of an entry, by its place in the queue, runs out. -/
def forwardExpiry (i : Nat) (s : State) : State :=
  match s.cls.queue[i]? with
  | none => s
  | some e =>
    if e.onLine then { s with cls := { s.cls with queue := s.cls.queue.set i { e with late := true } } }
    else
      queueReport e.frame.src 4 (.forwardExpired e.frame.dst e.frame.cls e.frame.payload.head?)
        (appendLog .forwardExpired (.stationAddress e.frame.dst) (.sourceClass e.frame.src e.frame.cls)
          { s with cls := { s.cls with queue := s.cls.queue.eraseIdx i } })

/-! ### The filter list (R134 to R140) -/

/-- R136: a test on a byte value. -/
def testHolds (v : Byte) : FilterTest → Bool
  | .range low high => decide (low ≤ v) && decide (v ≤ high)
  | .pair a b => v == a || v == b
  | .mask mask value => v &&& mask == value &&& mask

/-- R136: the header byte a field names. -/
def fieldOf (f : Frame) : FilterField → Byte
  | .destination => f.dst
  | .source => f.src
  | .kind => f.kind

/-- R135: the slot a capture action names. -/
def captureSlot : FilterAction → Option (Fin 4)
  | .capture k | .captureAndForward k => some k
  | _ => none

/-- R136: whether an element matches a frame. -/
def elementMatches (s : State) (f : Frame) (e : FilterElem) : Bool :=
  e.enabled && testHolds (fieldOf f e.field) e.test &&
    (captureSlot e.action).all fun k => (s.cls.slots.get k).isNone

/-- R136: the first element that matches. -/
def matching (s : State) (f : Frame) : Option (Fin 32) := first? fun i => elementMatches s f (s.cls.filter.get i)

/-- R134: whether a frame can cross to the S-line. -/
def forwardable (f : Frame) : Bool := f.kind == kindServiceRequest && f.dst != 0

/-- R140: a frame captured in a slot. -/
def capture (k : Fin 4) (i : Fin 32) (f : Frame) (s : State) : State :=
  { s with cls := { s.cls with
      slots := s.cls.slots.set k (some { bytes := frameBytes f, stamp := now s, element := i }) } }

/-- The forwarding part of an action: a frame that is not forwardable is dropped (R134). -/
def cross (f : Frame) (s : State) : State := if forwardable f then offerForward f s else s

/-- R137, R138: the action of a matching element carried out. -/
def act (i : Fin 32) (a : FilterAction) (f : Frame) (s : State) : State :=
  match a with
  | .forward => cross f s
  | .forwardAndLog => cross f (appendLog .frameLogged (.filterElement i) (.sourceKind f.src f.kind) s)
  | .gatedForward =>
    if forwardable f then
      if s.regime.state = .quiescent then offerForward f s
      else appendLog .gatedDrop (.filterElement i) (.sourceDest f.src f.dst) s
    else s
  | .drop => s
  | .capture k => capture k i f s
  | .captureAndForward k => cross f (capture k i f s)

/-- R134, R139: a frame evaluated against the filter list. -/
def filterFrame (f : Frame) (s : State) : State :=
  match matching s f with
  | some i => act i (s.cls.filter.get i).action f s
  | none => if s.params.defaultForward then cross f s else s

end Sys2Proof.Machine
end

