-- ==== Sys2Proof/Machine/Doors.lean ====
section
/-! DEFINITION. The Stair Door Unit: chapter 4. -/

namespace Sys2Proof.Machine

def setPoint (i : Fin 128) (p : DoorPoint) (s : State) : State :=
  { s with doors := { s.doors with points := s.doors.points.set i (some p) } }

/-- R90: queue a point's report as the record stands. -/
def reportPoint (i : Fin 128) (p : DoorPoint) (s : State) : State :=
  queueReport 0 5 (.doorPoint i p.controller p.output p.floor p.stair p.commanded p.feedback p.supervision p.pending
    p.test.isSome) s

/-- R85, R87: the DOOR FAULT record of a point that enters FAULT by a cause, or that leaves it.  R87 names the cause alone
for a loss; the model's detail carries the commanded state and the lock feedback there too, as R85 has them (DESIGN
CHOICE, log entry 40). -/
def logDoorFault (i : Fin 128) (old new : DoorPoint) (cause : DoorFaultCause) (s : State) : State :=
  if new.supervision = .fault ∧ old.supervision ≠ .fault then
    appendLog .doorFault (.doorPoint i) (.doorFault cause new.commanded (new.feedback.map (·.lock))) s
  else if old.supervision = .fault ∧ new.supervision ≠ .fault then
    appendLog .doorFault (.doorPoint i) .doorCleared s
  else s

/-- R90: whether a change of supervision enters or leaves FAULT or HELD OPEN. -/
def reportable (old new : Supervision) : Bool :=
  old != new && (old == .fault || new == .fault || old == .heldOpen || new == .heldOpen)

/-- R85, R87, R90: a point's record replaced, with the DOOR FAULT record and the report its change of supervision asks
for. -/
def changePoint (i : Fin 128) (cause : DoorFaultCause) (old new : DoorPoint) (s : State) : State :=
  let s := logDoorFault i old new cause (setPoint i new s)
  if reportable old.supervision new.supervision then reportPoint i new s else s

/-- R84: whether a command and a lock feedback agree. -/
def agrees (c : Lock) (l : LockFeedback) : Bool :=
  match c, l with
  | .locked, .engaged => true
  | .released, .disengaged => true
  | _, _ => false

/-- R84: a point gone to MISMATCH with its timer at the full feedback time. -/
def startMismatch (s : State) (p : DoorPoint) : DoorPoint :=
  { p with supervision := .mismatch, mismatch := some (ticks s.params.feedbackTime) }

/-- A point gone to CORRECT, its mismatch timer stopped. -/
def toCorrect (p : DoorPoint) : DoorPoint := { p with supervision := .correct, mismatch := none }

/-- R86: supervision judged afresh when the commanded state has changed. -/
def judgeCommand (s : State) (p : DoorPoint) : DoorPoint :=
  match p.feedback, p.supervision with
  | none, _ => p
  | some f, .correct => if agrees p.commanded f.lock then toCorrect p else startMismatch s p
  | some f, .mismatch => if agrees p.commanded f.lock then toCorrect p else startMismatch s p
  | some _, _ => p

/-- R84: a reply judged against the commanded state. -/
def judgeReply (s : State) (f : Feedback) (p : DoorPoint) : DoorPoint :=
  if agrees p.commanded f.lock then
    match p.supervision with
    | .mismatch | .fault => toCorrect p
    | _ => p
  else
    match p.supervision with
    | .correct => startMismatch s p
    | _ => p

/-- R86: a point commanded, judged if that changed its commanded state.  R86 judges when a commanded state changes, so a
TEST DOOR of a point already commanded RELEASED (R88) is not judged: from HELD OPEN it goes to CORRECT as it stands, and a
mismatch timer that runs goes on (DEDUCED, log entry 41). -/
def command (s : State) (c : Lock) (p : DoorPoint) : DoorPoint :=
  if p.commanded = c then p else judgeCommand s { p with commanded := c }

/-- R83: a reply taken for a point whose relock pending is set. -/
def closure (s : State) (f : Feedback) (p : DoorPoint) : DoorPoint :=
  match f.door with
  | .closed =>
    let p := { p with pending := false, commanded := .locked }
    match p.supervision, f.lock with
    | .heldOpen, .engaged | .fault, .engaged => toCorrect p
    | .heldOpen, .disengaged => startMismatch s p
    | _, _ => p
  | .opened => if p.supervision = .fault then { p with supervision := .heldOpen } else p

/-- R76: one feedback pair taken for a point. -/
def takeFeedback (s : State) (f : Feedback) (p : DoorPoint) : DoorPoint :=
  let p := { p with feedback := some f }
  if p.pending then closure s f p else judgeReply s f p

/-- R76: the feedback pair a reply carries for an output, if it names values of both sets. -/
def feedbackAt (payload : List Byte) (output : Fin 8) : Option Feedback :=
  match payload[2 * output.val]?, payload[2 * output.val + 1]? with
  | some l, some d =>
    match ofCode lockFeedbacks l.toNat, ofCode doorFeedbacks d.toNat with
    | some lock, some door => some { lock, door }
    | _, _ => none
  | _, _ => none

/-- R76: a reply of a door controller, its outputs in output order. -/
def doorReply (a : Byte) (payload : List Byte) (s : State) : State :=
  forEach 8 (fun o => match feedbackAt payload o with
    | none => id
    | some f => forEach 128 fun i s =>
      match s.doors.points.get i with
      | some p =>
        if p.controller = a ∧ p.output = o then changePoint i .cleared p (takeFeedback s f p) s else s
      | none => s) s

/-! ### Release (R78, R79) -/

/-- R78 step 4: the release rule. -/
def releaseRule (s : State) (p : DoorPoint) : Lock :=
  match (s.seq.stairs.get p.stair).mode with
  | .all => .released
  | .follow =>
    if (inUse s p.floor ∧ (s.seq.floors.get p.floor).state = .evacuate) ∨ p.floor = s.params.discharge then .released
    else .locked

/-- R78 steps 2 and 3: test and relock pending ended; HELD OPEN becomes CORRECT. -/
def clearHold (p : DoorPoint) : DoorPoint :=
  { p with test := none, pending := false
           supervision := if p.supervision = .heldOpen then .correct else p.supervision }

/-- A change applied to every point in use, in record order. -/
def eachPoint (cause : DoorFaultCause) (f : State → DoorPoint → DoorPoint) (s : State) : State :=
  forEach 128 (fun i s =>
    match s.doors.points.get i with
    | some p => changePoint i cause p (f s p) s
    | none => s) s

/-- R78: the regime entry. -/
def doorEntry (s : State) : State :=
  let s := { s with doors := { s.doors with relock := none } }
  eachPoint .cleared (fun s p => command s (releaseRule s p) p) (eachPoint .cleared (fun _ p => clearHold p) s)

/-- R79, R80: a floor change notice; outside ACTIVE it has no effect. -/
def doorNotice (changed : FloorSet) (s : State) : State :=
  if s.regime.state = .active then
    eachPoint .cleared (fun s p =>
      if (s.seq.stairs.get p.stair).mode = .follow ∧ inSet changed p.floor = true ∧
          (s.seq.floors.get p.floor).state = .evacuate then command s .released p else p) s
  else s

/-- R81: the transition to RESTORING. -/
def doorReset (s : State) : State :=
  { s with doors := { s.doors with relock := some (ticks s.params.relockTime) } }

/-! ### Relock and tests (R82, R88, R89) -/

/-- R82: a released point at the relock expiry is locked when its controller is not LOST and its door is CLOSED. -/
def closedNow (s : State) (p : DoorPoint) : Bool :=
  !stationLost s p.controller && p.feedback.any fun f => f.door == .closed

/-- R82: a point left released with its relock pending. -/
def holdOpen (p : DoorPoint) : DoorPoint :=
  { p with pending := true, mismatch := none
           supervision := if p.supervision = .fault then .fault else .heldOpen }

/-- R82: the relock path of one point commanded RELEASED; a point left pending logs HELD OPEN and is reported.
R82 and R89 name no field for the record's detail, which is 0 (DESIGN CHOICE, log entry 46). -/
def relockPoint (i : Fin 128) (p : DoorPoint) (s : State) : State :=
  if closedNow s p then changePoint i .cleared p (command s .locked p) s
  else reportPoint i (holdOpen p) (appendLog .heldOpen (.doorPoint i) .zero (setPoint i (holdOpen p) s))

/-- R82: the relock expiry, less RELOCK DONE. -/
def relockAll (s : State) : State :=
  forEach 128 (fun i s =>
    match s.doors.points.get i with
    | some p => if p.commanded = .released then relockPoint i p s else s
    | none => s) { s with doors := { s.doors with relock := none } }

/-- R85: a point's mismatch timer runs out. -/
def mismatchExpiry (i : Fin 128) (s : State) : State :=
  match s.doors.points.get i with
  | some p =>
    if p.supervision = .mismatch then
      changePoint i .feedback p { p with supervision := .fault, mismatch := none } s
    else setPoint i { p with mismatch := none } s
  | none => s

/-- R88: the test release of a point, for a clamped duration in seconds. -/
def testRelease (i : Fin 128) (p : DoorPoint) (duration : Nat) (s : State) : State :=
  let p' := { p with pending := false
                     supervision := if p.supervision = .heldOpen then .correct else p.supervision }
  changePoint i .cleared p { command s .released p' with test := some (ticks duration) } s

/-- R89: a point's test timer runs out in QUIESCENT. -/
def testExpiry (i : Fin 128) (s : State) : State :=
  match s.doors.points.get i with
  | some p =>
    if p.test = none then s
    else
      let q := { p with test := none }
      let s := setPoint i q s
      if s.regime.state = .quiescent ∧ q.commanded = .released then relockPoint i q s else s
  | none => s

/-- R87: the loss of a door controller. -/
def doorsLost (a : Byte) (s : State) : State :=
  eachPoint .stationLost (fun _ p =>
    if p.controller = a then { p with supervision := .fault, mismatch := none } else p) s

end Sys2Proof.Machine
end

