-- ==== Sys2Proof/Machine/Lifts.lean ====
section
/-! DEFINITION. The Lift Recall Unit: chapter 3. -/

namespace Sys2Proof.Machine

/-! ### Commands (R59) -/

/-- R59: RECALL TO or SHUTDOWN AT a target; a state with a target always holds one, and a record without is sent to the
bank's recall floor. -/
def targetOr (bank : Bank) (t : Option (Fin 64)) : Fin 64 := t.getD bank.recallFloor

/-- R59: the command that follows from a recall state with its target, LOST apart. -/
def commandOf (bank : Bank) (st : RecallState) (target : Option (Fin 64)) : CarCommand :=
  match st with
  | .free => .noRecall
  | .recalling | .parked | .overdue => .recallTo (targetOr bank target)
  | .shutdown => .shutdownAt (targetOr bank target)
  | .firefighter => .firefighterControl
  | .stranded => .recallTo bank.recallFloor
  | .lost => .noRecall

/-- R59: the command of a car. -/
def carCommand (s : State) (c : Car) : CarCommand :=
  let bank := s.lifts.banks.get c.bank
  match c.state, c.before with
  | .lost, some b =>
    if b.state = .free ∧ s.regime.state = .active then .recallTo bank.recallFloor
    else commandOf bank b.state b.target
  | st, _ => commandOf bank st c.target

/-! ### Records -/

def setCar (i : Fin 8) (c : Car) (s : State) : State :=
  { s with lifts := { s.lifts with cars := s.lifts.cars.set i (some c) } }

/-- R60: a CAR STATE record and a car STATE REPORT. -/
def announceCar (i : Fin 8) (c : Car) (s : State) : State :=
  queueReport 0 5 (.car i c.bank c.index c.state c.target c.reported c.compromised (s.lifts.banks.get c.bank).choice)
    (appendLog .carState (.car i) (.car c.state c.target c.compromised) s)

/-- R59: a car's record replaced; a change of its command is noted for its interface's early poll (R151), and a car that
comes to be OVERDUE or STRANDED where none was is an onset (R165). -/
def placeCar (i : Fin 8) (c c' : Car) (s : State) : State :=
  let t := noteOnset .carOverdueOrStranded s (setCar i c' s)
  if carCommand s c' = carCommand s c then t else noteOwner (s.lifts.banks.get c.bank).iface t

/-- R60: one step of a car in use; a change of recall state, target or compromised flag is logged and reported once. -/
def changeCar (i : Fin 8) (f : Car → Car) (s : State) : State :=
  match s.lifts.cars.get i with
  | none => s
  | some c =>
    let c' := f c
    let s := placeCar i c c' s
    if c'.state ≠ c.state ∨ c'.target ≠ c.target ∨ c'.compromised ≠ c.compromised then announceCar i c' s else s

/-- R56, R63: a car gone to RECALLING toward a floor, with a fresh recall start and its timer at the full timeout. -/
def toRecalling (s : State) (target : Fin 64) (c : Car) : Car :=
  { c with state := .recalling, target := some target, start := now s
           timer := some (ticks (s.lifts.banks.get c.bank).timeout), before := none }

/-- A car gone to a state that keeps its target and runs no timer (R62, R63, R65). -/
def toKept (st : RecallState) (c : Car) : Car := { c with state := st, timer := none, before := none }

/-- A car gone to FIREFIGHTER or STRANDED: timer stopped, target absent (R66, R68). -/
def toUntargeted (st : RecallState) (c : Car) : Car := { c with state := st, target := none, timer := none, before := none }

/-- R55: whether a zone named in the bank table is in ALARM; none is never in ALARM. -/
def zoneInAlarm (s : State) (z : Option (Fin 256)) : Bool :=
  z.any fun z => (s.zones.table.get z).state == .alarm

/-- R65: whether a car's bank has its shaft zone in ALARM. -/
def shaftAlarm (s : State) (b : Fin 2) : Bool := zoneInAlarm s (s.lifts.banks.get b).shaft

/-- Whether a reported mode is INSPECTION or OUT OF SERVICE (R68). -/
def unfit (m : CarMode) : Bool := m == .inspection || m == .outOfService

/-- R61: a car whose reported fields are absent is taken as in NORMAL mode. -/
def modeOf (c : Car) : CarMode := c.reported.elim .normal (·.mode)

/-! ### The recall floor (R58, R64, R65) -/

/-- R58: the choice from the states of the two lobby zones. -/
def choose (primaryAlarm alternateAlarm : Bool) : Choice :=
  if !primaryAlarm then .primary else if !alternateAlarm then .alternate else .compromised

/-- R58: the recall floor of a choice. -/
def recallFloorOf (b : Bank) : Choice → Fin 64
  | .primary => b.primary
  | .alternate | .compromised => b.alternate

/-- R58: a bank's choice made from the zones as they stand, and the compromised flags of its cars: set at COMPROMISED,
cleared at a regime entry that chooses PRIMARY or ALTERNATE. -/
def chooseBank (entry : Bool) (b : Fin 2) (s : State) : State :=
  let bk := s.lifts.banks.get b
  let choice := choose (zoneInAlarm s bk.primaryZone) (zoneInAlarm s bk.alternateZone)
  let s := { s with lifts := { s.lifts with
    banks := s.lifts.banks.set b { bk with recallFloor := recallFloorOf bk choice, choice } } }
  forEach 8 (fun i => changeCar i fun c =>
    if c.bank = b then
      if choice = .compromised then { c with compromised := true }
      else if entry then { c with compromised := false } else c
    else c) s

/-- R64: a car in RECALLING, OVERDUE or PARKED whose target differs from its bank's recall floor is re-targeted. -/
def retargetCar (i : Fin 8) (s : State) : State :=
  changeCar i (fun c =>
    let floor := (s.lifts.banks.get c.bank).recallFloor
    if (c.state = .recalling ∨ c.state = .overdue ∨ c.state = .parked) ∧ c.target ≠ some floor then
      toRecalling s floor c
    else c) s

/-- R65: in ACTIVE a PARKED car whose shaft zone is in ALARM goes to SHUTDOWN and keeps its target. -/
def shutdownCar (i : Fin 8) (s : State) : State :=
  changeCar i (fun c => if c.state = .parked ∧ shaftAlarm s c.bank = true then toKept .shutdown c else c) s

/-! ### The regime (R61, R64, R65) -/

/-- R61 step 2: a FREE car at the regime entry. -/
def enterCar (i : Fin 8) (s : State) : State :=
  changeCar i (fun c =>
    if c.state = .free then
      let bank := s.lifts.banks.get c.bank
      if stationLost s bank.iface then
        { c with state := .lost, target := none, timer := none, before := some { state := .free, target := none } }
      else if unfit (modeOf c) then toUntargeted .stranded c
      else toRecalling s bank.recallFloor c
    else c) s

/-- R61: the regime entry, in its order; the cars of step 2 in record order, as it says, and the banks and the cars of the
other steps likewise (log entry 33). -/
def liftEntry (s : State) : State :=
  let s := forEach 2 (chooseBank true) s
  forEach 8 shutdownCar (forEach 8 retargetCar (forEach 8 enterCar s))

/-- R58, R64, R65: a zone change notice taken in ACTIVE: the recall floors of both banks, the cars of the banks whose
recall floor changed, then the shaft zones.  No rule orders the two banks, nor the cars of one step, which are taken in
record order (DEDUCED, log entry 33), here and at a loss (R69) and a release (R72). -/
def liftZoneChange (s : State) : State :=
  let t := forEach 2 (chooseBank false) s
  let moved := fun b : Fin 2 => (t.lifts.banks.get b).recallFloor != (s.lifts.banks.get b).recallFloor
  let t := forEach 8 (fun i u =>
    if ((u.lifts.cars.get i).any fun c => moved c.bank) then retargetCar i u else u) t
  forEach 8 shutdownCar t

/-! ### Car reports (R57, R62, R66 to R68, R70) -/

/-- R62: the arrival test. -/
def arrived (c : Car) (r : CarReport) : Bool :=
  r.mode == .recalled && r.position.isSome && r.position == c.target && r.motion == .stopped && r.doors == .opened

/-- R62: a PARKED car is away from its target or moving. -/
def leftTarget (c : Car) (r : CarReport) : Bool := r.position.isNone || r.position != c.target || r.motion != .stopped

/-- R67, R70: a car taken back outside ACTIVE with a floor as target: PARKED when the report shows that position with
doors OPEN, otherwise RECALLING. -/
def parkOrRecall (s : State) (floor : Fin 64) (c : Car) : Car :=
  if c.reported.any fun r => r.position == some floor && r.doors == .opened then
    { toKept .parked c with target := some floor }
  else toRecalling s floor c

/-- R62, R66 to R68: the transition a car report makes, the reported fields already replaced.  The rules do not order the
two readings of a report that shows a PARKED car elsewhere or moving, and in mode FIREFIGHTER, INSPECTION or OUT OF SERVICE:
the mode is judged alone, with no step to RECALLING (DESIGN CHOICE, log entry 51). -/
def reportTransition (s : State) (r : CarReport) (c : Car) : Car :=
  let floor := (s.lifts.banks.get c.bank).recallFloor
  match c.state with
  | .free | .lost => c
  | .recalling | .overdue =>
    if r.mode = .firefighter then toUntargeted .firefighter c
    else if unfit r.mode then toUntargeted .stranded c
    else if arrived c r then toKept .parked c else c
  | .parked =>
    if r.mode = .firefighter then toUntargeted .firefighter c
    else if unfit r.mode then toUntargeted .stranded c
    else if leftTarget c r then toRecalling s (targetOr (s.lifts.banks.get c.bank) c.target) c else c
  | .shutdown =>
    if r.mode = .firefighter then toUntargeted .firefighter c
    else if unfit r.mode then toUntargeted .stranded c else c
  | .firefighter =>
    if r.mode = .firefighter then c
    else if unfit r.mode then toUntargeted .stranded c
    else if s.regime.state = .active then toRecalling s floor c
    else parkOrRecall s floor c
  | .stranded =>
    if r.mode = .firefighter then toUntargeted .firefighter c
    else if unfit r.mode then c
    else toRecalling s floor c

/-- Whether a car is on its way to its target (R62). -/
def travelling (s : State) (i : Fin 8) : Bool :=
  (s.lifts.cars.get i).any fun c => c.state == .recalling || c.state == .overdue

/-- R62, R65, R66 to R68: a car report taken for a car that is not LOST; one that has just arrived in ACTIVE with its
shaft zone in ALARM goes on to SHUTDOWN. -/
def takeCarReport (i : Fin 8) (r : CarReport) (s : State) : State :=
  let t := changeCar i (fun c => reportTransition s r { c with reported := some r }) s
  if travelling s i ∧ s.regime.state = .active then shutdownCar i t else t

/-- R70: the re-derivation of a LOST car from its reported fields; absent ones are taken as mode NORMAL away from the target,
as R61 takes them at a regime entry (DESIGN CHOICE, log entry 66). -/
def rederive (s : State) (c : Car) : Car :=
  let floor := (s.lifts.banks.get c.bank).recallFloor
  let mode := modeOf c
  if s.regime.state = .active then
    if mode = .firefighter then toUntargeted .firefighter c
    else if unfit mode then toUntargeted .stranded c
    else toRecalling s floor c
  else match c.before with
    | none => toUntargeted .free c
    | some b =>
      if b.state = .free then toUntargeted .free c
      else if mode = .firefighter then toUntargeted .firefighter c
      else if unfit mode then toUntargeted .stranded c
      else match b.state with
        | .shutdown => { toKept .shutdown c with target := b.target }
        | .recalling | .overdue | .parked => parkOrRecall s (targetOr (s.lifts.banks.get c.bank) b.target) c
        | _ => parkOrRecall s floor c

/-- R57, R62 to R68, R70: the car reports of a reply that concern one car.  A LOST car of a reply that comes with the
ONLINE notice takes the last of them and is re-derived, which is the whole handling of the reply for it; without the notice
it takes the reported fields and stays LOST (R158).  R57 has one report for each index: where a reply carries two, a car
takes both in their order, and a LOST car the last alone (DESIGN CHOICE, log entry 66). -/
def carReply (online : Bool) (i : Fin 8) (rs : List CarReport) (s : State) : State :=
  match s.lifts.cars.get i with
  | none => s
  | some c =>
    if online = true ∧ c.state = .lost then
      changeCar i (fun c => rederive s { c with reported := match rs.getLast? with | some r => some r | none => c.reported }) s
    else rs.foldl (fun s r => takeCarReport i r s) s

/-- R57: the valid car reports in a lift interface's payload with the car index each names: a count byte, then for each
report the index, position, motion, doors and mode; one that names a value outside R56 is ignored as a whole. -/
def carReports : List Byte → List (Nat × CarReport)
  | idx :: pos :: motion :: doors :: mode :: rest =>
    let more := carReports rest
    match ofCode motions motion.toNat, ofCode carDoorStates doors.toNat, ofCode carModes mode.toNat with
    | some m, some d, some o =>
      (idx.toNat, { position := index? 64 pos.toNat, motion := m, doors := d, mode := o }) :: more
    | _, _, _ => more
  | _ => []

/-- R158: whether a LOST car names an interface address. -/
def namedByLostCar (a : Byte) (s : State) : Bool :=
  s.lifts.cars.rows.any fun c => c.any fun c => c.state == .lost && (s.lifts.banks.get c.bank).iface == a

/-- R57, R70: a reply of a lift interface, with the ONLINE notice or without, taken for the cars it drives in car index order, then record order. -/
def liftReply (online : Bool) (a : Byte) (payload : List Byte) (s : State) : State :=
  let reports := match payload with
    | [] => []
    | n :: rest => carReports (rest.take (5 * n.toNat))
  forEach 4 (fun idx => forEach 8 fun i s =>
    match s.lifts.cars.get i with
    | none => s
    | some c =>
      if c.index = idx ∧ (s.lifts.banks.get c.bank).iface = a then
        carReply online i ((reports.filter fun p => p.1 == idx.val).map (·.2)) s
      else s) s

/-! ### Timer, loss and release (R63, R69, R72) -/

/-- R63: the recall timer of a RECALLING car runs out. -/
def recallExpiry (i : Fin 8) (s : State) : State :=
  changeCar i (fun c => if c.state = .recalling then toKept .overdue c else { c with timer := none }) s

/-- R69: the states that have a target. -/
def lose (c : Car) : Car :=
  if c.state = .lost then c
  else { c with state := .lost, target := none, timer := none, before := some { state := c.state, target := c.target } }

/-- R69: the loss of a lift interface; its cars are taken in record order (log entry 33). -/
def liftLost (a : Byte) (s : State) : State :=
  forEach 8 (fun i => changeCar i fun c => if (s.lifts.banks.get c.bank).iface = a then lose c else c) s

/-- R72: a car goes to FREE. -/
def freeCar (c : Car) : Car :=
  { c with state := .free, target := none, timer := none, compromised := false, before := none }

/-- R72: whether LIFT RELEASE frees a car of the bank. -/
def releasable (b : Fin 2) (c : Car) : Bool := c.bank == b && c.state != .free && c.state != .lost

/-- R72: LIFT RELEASE and its answer; the cars are taken in record order (log entry 33). -/
def liftRelease (b : Fin 2) (s : State) : Answer × State :=
  if s.regime.state = .active then (.regimeActive, s)
  else
    let some_ := (List.finRange 8).any fun i => (s.lifts.cars.get i).any (releasable b)
    (if some_ then .accepted else .noChange,
     forEach 8 (fun i => changeCar i fun c => if releasable b c then freeCar c else c) s)

end Sys2Proof.Machine
end

