-- ==== Sys2Proof/Machine/PLine.lean ====
section
/-! DEFINITION. The P-line Port and the receivers of both lines: chapter 6.

A turn goes from gap to frame and from frame to gap.  A frame is taken from the head of the queue as it starts (R126): when
10 ms have passed in the gap, or, where its sending is reported sooner, with that report (log entry 12).  Until it has been
sent the P-line receiver is held in HUNT (R119). -/

namespace Sys2Proof.Machine

/-! ### Receivers (R118, R119) -/

/-- R119: a character heard by a receiver, other than the last byte of a frame or a byte 4 above 64. -/
def hear (rx : Rx) (c : Heard) : Rx :=
  match rx, c with
  | .hunt, _ => .hunt
  | _, .broken => .hunt
  | .ready, .good b => .inFrame [b]
  | .inFrame bs, .good b => .inFrame (bs ++ [b])

/-- A trunk line's record. -/
def trunk (s : State) : Line → Trunk
  | .p => s.port.line
  | .s => s.sline.line

def setTrunk (l : Line) (t : Trunk) (s : State) : State :=
  match l with
  | .p => { s with port := { s.port with line := t } }
  | .s => { s with sline := { s.sline with line := t } }

def setRx (l : Line) (rx : Rx) (s : State) : State := setTrunk l { trunk s l with rx } s

/-- R118: the rate held for a line by the parameters. -/
def rateParam (s : State) : Line → Nat
  | .p => s.params.rateP
  | .s => s.params.rateS

/-- R118: whether a frame or a transaction is on a line. -/
def lineBusy (s : State) : Line → Bool
  | .p => s.port.turn.isSome
  | .s => s.sline.txn.isSome

/-- R119: whether the bridge is transmitting on a line, whose receiver is then held in HUNT: on the P-line while a frame of
its turn has started, on the S-line while the answer window of its transaction has not yet opened. -/
def transmitting (s : State) : Line → Bool
  | .p => s.port.turn.any (·.frame.isSome)
  | .s => s.sline.txn.any fun t => t.window.isNone && !t.candidate

/-- R118: a newly applied rate takes effect when the line is silent between frames. -/
def takeRate (l : Line) (s : State) : State :=
  if (trunk s l).rx = .ready ∧ lineBusy s l = false then setTrunk l { trunk s l with rate := rateParam s l } s else s

/-! ### Turns (R126 to R129) -/

/-- R128: no entry is being sent. -/
def unmark (q : List QEntry) : List QEntry := q.map fun e => { e with sending := false }

/-- R126, R127: the frame a turn takes as it starts: the entry at the head of the queue, or TURN END when the limit has
been reached or the queue is then empty.  A queue that was empty at the POLL is no exception: R126 has that turn be TURN END
alone and R129 has an entry queued during it sent, and the model follows R129 (DESIGN CHOICE, log entry 55). -/
def takeFrame (t : Turn) (s : State) : State :=
  match if t.sent < s.params.framesPerTurn then s.port.queue else [] with
  | e :: rest =>
    { s with port := { s.port with
        queue := { e with sending := true } :: rest
        turn := some { t with frame := some (.report e) } } }
  | [] =>
    let left := s.port.queue.length
    { s with port := { s.port with
        turn := some { t with frame := some (.turnEnd left (decide (s.params.queueMark ≤ left))) } } }

/-- R119, R126: a frame of the turn starts at the end of a gap, and the receiver is held in HUNT. -/
def startFrame (s : State) : State :=
  match s.port.turn with
  | some t => if t.frame.isSome then s else takeFrame t (setRx .p .hunt s)
  | none => s

/-- R126, R129: a turn granted to the source of a POLL.  The time from the POLL to the turn's first frame is taken as a gap,
though R128 speaks of gaps between the frames of the turn (DESIGN CHOICE, log entry 12). -/
def grantTurn (master : Byte) (s : State) : State :=
  { s with port := { s.port with
      queue := unmark s.port.queue, turn := some { master, sent := 0, frame := none }
      timeout := presetTimeout, silent := false } }

/-- R129: the turn timeout at the end of a turn: it starts again when entries are still queued. -/
def timeoutAfter (q : List QEntry) : Stopwatch := if q = [] then presetTimeout else runningTimeout

/-- R126, R129: the turn is over. -/
def endTurn (s : State) : State :=
  { s with port := { s.port with turn := none, timeout := timeoutAfter s.port.queue } }

/-- R126: the present frame of the turn has been sent whole, after starting here if the gap had not ended before: its entry
leaves the queue and the next gap begins, or the turn ends with its TURN END.  The receiver, held in HUNT while the frame
was on the line, waits there for 2 ms of silence (R119). -/
def frameSent (s : State) : State :=
  let s := startFrame s
  match s.port.turn with
  | none => s
  | some t =>
    let s := setRx .p .hunt s
    match t.frame with
    | none => s
    | some (.turnEnd _ _) => endTurn s
    | some (.report _) =>
      { s with port := { s.port with
          queue := s.port.queue.filter fun e => !e.sending
          turn := some { t with sent := t.sent + 1, frame := none } } }

/-- R128: whether the line is in a gap of the turn in progress: between two frames, or between the POLL and the first frame,
where R128 does not say that a character heard abandons the turn (DESIGN CHOICE, log entry 12). -/
def inGap (s : State) : Bool := s.port.turn.any (·.frame.isNone)

/-- R128: a character has been heard on the P-line: in a gap of the turn it abandons the turn, its entries kept.  A frame
that has started is sent whole. -/
def breakTurn (s : State) : State :=
  if inGap s then endTurn { s with port := { s.port with queue := unmark s.port.queue } } else s

/-- R119, R128: another station is heard in a gap of the turn, and its character is the receiver's. -/
def abandonTurn (c : Heard) (s : State) : State :=
  if inGap s then breakTurn (setRx .p (hear s.port.line.rx c) s) else s

/-- R128: a character heard on a line: on the P-line it ends a turn that is in a gap. -/
def noteHeard (l : Line) (s : State) : State :=
  match l with
  | .p => breakTurn s
  | .s => s

/-- R129: the turn timeout reaches 0. -/
def timeoutEnd (s : State) : State :=
  if s.port.timeout.running then
    { s with port := { s.port with timeout := { left := 0, running := false }, silent := true } }
  else s

end Sys2Proof.Machine
end

