-- ==== Sys2Proof/Machine/SLine.lean ====
section
/-! DEFINITION. The Services Line Scheduler: chapter 8, and the S-line transaction (R130, R131). -/

namespace Sys2Proof.Machine

/-! ### What a poll carries (R153) -/

/-- R59, R153: the command of a car index of an interface: that of the lowest car record in use with that index, of a
bank whose interface is this station. -/
def liftCommand (s : State) (a : Byte) (idx : Fin 4) : CarCommand :=
  let mine := fun (c : Car) => (s.lifts.banks.get c.bank).iface == a && c.index == idx
  (((first? fun i => (s.lifts.cars.get i).any mine).bind s.lifts.cars.get).map (carCommand s)).getD .noRecall

/-- R77: the state of an output of a controller. -/
def outputState (s : State) (a : Byte) (o : Fin 8) : Lock :=
  let mine := fun (p : DoorPoint) => p.controller == a && p.output == o
  (((first? fun i => (s.doors.points.get i).any mine).bind s.doors.points.get).map (·.commanded)).getD .locked

/-- R98: the floors of a rack routed to a channel. -/
def routedTo (s : State) (r : Fin 4) (k : Fin 2) : FloorSet :=
  if (s.ann.channels.get k).state = .playing then (s.ann.channels.get k).held &&& rackFloors s r else 0

/-- R98: what a rack is told of a channel. -/
def playLine (s : State) (k : Fin 2) : Option PlayLine :=
  if (s.ann.channels.get k).state = .playing then
    (channelJob s k).map fun j => { number := (s.ann.channels.get k).number, source := j.source }
  else none

/-- R98: what the poll of a rack carries. -/
def rackPoll (s : State) (r : Fin 4) : PollContent :=
  .rack (s.ann.racks.get r).commanded (rackFloors s r) (routedTo s r 0) (routedTo s r 1) (playLine s 0) (playLine s 1)

/-- R98, R153: what the poll of a rack station carries; an address that no rack names gets commanded power ON and no play.
Of two racks that name one address, which R93 does not refuse, the poll is composed from the lower, while a reply is taken
for each (DESIGN CHOICE, log entry 44). -/
def rackContent (s : State) (a : Byte) : PollContent :=
  match first? fun r => (s.ann.racks.get r).address == a with
  | some r => rackPoll s r
  | none => .rack .on 0 0 0 none none

/-- R112, R153: what a console's poll carries. -/
def consoleContent (s : State) (a : Byte) : PollContent :=
  .console ((((tenantAt s a).bind s.ann.tenants.get).map (·.status)).getD .idle) s.regime.state

/-- R153: the content of a STATION POLL as the owner's records stand. -/
def pollContent (s : State) (st : Station) : PollContent :=
  match st.kind with
  | .liftInterface => .lift ((List.finRange 4).map (liftCommand s st.address))
  | .doorController => .doors ((List.finRange 8).map (outputState s st.address))
  | .amplifierRack => rackContent s st.address
  | .tenantConsole => consoleContent s st.address

/-- R122: a car's command, by its place in R153's list; R59's table has SHUTDOWN AT before FIREFIGHTER CONTROL (DEDUCED,
log entry 47). -/
def commandBytes : CarCommand → List Byte
  | .noRecall => b1 0
  | .recallTo f => b1 1 ++ b1 f.val
  | .firefighterControl => b1 2
  | .shutdownAt f => b1 3 ++ b1 f.val

/-- R98, R122: the routing of each floor a rack serves, NONE 0, CH0 1, CH1 2, after their number; the order is the one of
R153's table (log entry 47). -/
def routingBytes (serves routed0 routed1 : FloorSet) : List Byte :=
  let floors := (List.finRange 64).filter (inSet serves)
  b1 floors.length ++ floors.flatMap fun f => b1 (if inSet routed0 f then 1 else if inSet routed1 f then 2 else 0)

/-- R98, R122: a play number, none as 256, and the source with it. -/
def playLineBytes : Option PlayLine → List Byte
  | some p => be 2 p.number.toNat ++ sourceBytes p.source
  | none => be 2 256

/-- R122, R153: the fields of a poll. -/
def contentBytes : PollContent → List Byte
  | .lift cs => cs.flatMap commandBytes
  | .doors ls => ls.flatMap fun l => b1 l.ctorIdx
  | .rack power serves r0 r1 p0 p1 =>
    b1 power.ctorIdx ++ routingBytes serves r0 r1 ++ playLineBytes p0 ++ playLineBytes p1
  | .console status lamp => b1 status.ctorIdx ++ b1 lamp.ctorIdx

/-- R120: the payload of a poll, of 64 bytes or fewer. -/
def pollPayload (c : PollContent) : List Byte :=
  if (contentBytes c).length ≤ 64 then contentBytes c else (Config.longPoll (contentBytes c)).take 64

/-- R130: the bytes the bridge sends to open a transaction; a forwarded frame goes as it arrived (R120). -/
def txnBytes (own : Byte) (t : Txn) : List Byte :=
  match t.sent with
  | .poll c => frameBytes { dst := t.dest, src := own, kind := kindStationPoll, cls := 0, payload := pollPayload c }
  | .forward f => frameBytes f

/-! ### Choosing the next transaction (R149 to R151) -/

/-- R150: the next record of the rotation. -/
def rotationNext (s : State) : Option (Fin 48) :=
  let used := (List.finRange 48).filter fun i => (s.sline.stations.get i).isSome
  match s.sline.pointer with
  | none => used.head?
  | some p => ((used.filter fun i => p < i).head?).orElse fun _ => used.head?

/-- R151, R153: a STATION POLL to a record composed and sent. -/
def sendPoll (i : Fin 48) (s : State) : State :=
  match s.sline.stations.get i with
  | none => s
  | some st =>
    { s with sline := { s.sline with
        early := s.sline.early.erase i
        burst := 0
        txn := some { kind := .poll i, dest := st.address, sent := .poll (pollContent s st), window := none, candidate := false } } }

/-- R143: the first QUEUED entry of the S forward queue, with its place. -/
def firstQueued (s : State) : Option (Nat × Forward) :=
  (s.cls.queue.zipIdx.find? fun p => !p.1.onLine).map fun p => (p.2, p.1)

/-- R143, R149: a forward sent. -/
def sendForward (i : Nat) (e : Forward) (s : State) : State :=
  { s with
    cls := { s.cls with queue := s.cls.queue.set i { e with onLine := true } }
    sline := { s.sline with
      burst := s.sline.burst + 1
      txn := some { kind := .forward, dest := e.frame.dst, sent := .forward e.frame, window := none, candidate := false } } }

/-- R149: the choice, steps 1 to 4. -/
def chooseTransaction (s : State) : State :=
  match if s.sline.burst < s.params.burstLimit then firstQueued s else none with
  | some (i, e) => sendForward i e s
  | none =>
    match s.sline.early with
    | i :: _ => sendPoll i s
    | [] =>
      match rotationNext s with
      | some i => sendPoll i { s with sline := { s.sline with pointer := some i } }
      | none => s

/-- R118, R119: a line begins to carry a frame of the bridge: its receiver is held in HUNT and a rate held for it takes
effect. -/
def transmitS (s : State) : State := setTrunk .s { rx := .hunt, rate := s.params.rateS } s

/-- R149, R152: the S-line is free for a new transaction. -/
def nextTxn (s : State) : State :=
  if s.sline.txn.isSome ∨ s.addrs.own = 0 then s
  else
    let t := chooseTransaction s
    if t.sline.txn.isSome then transmitS t else t

/-! ### The end of a transaction (R131, R145, R154 to R156) -/

def setStation (i : Fin 48) (st : Option Station) (s : State) : State :=
  { s with sline := { s.sline with stations := s.sline.stations.set i st } }

/-- R157: queue a station's report. -/
def reportStation (i : Fin 48) (st : Station) (s : State) : State :=
  queueReport 0 5 (.station i st.address st.kind st.lost st.noAnswer st.lastReply) s

/-- R154, R158: whether the ONLINE notice goes with a reply from the source `src` to the poll of a record, as the record
stood: the station was LOST, or its address, from which the reply comes, is named by a LOST car.  A door point or rack put
in FAULT by a loss takes each reply alike (R76, R94), so the notice says nothing to their owners. -/
def onlineNotice (st : Station) (src : Byte) (s : State) : Bool :=
  st.lost || (st.address == src && namedByLostCar st.address s)

/-- R154: the reply handed to the owner of the record's kind, with the ONLINE notice or without, under its own source, which
is the address the poll was sent to (R57, R76). -/
def deliver (kind : StationKind) (online : Bool) (src : Byte) (payload : List Byte) (s : State) : State :=
  match kind with
  | .liftInterface => liftReply online src payload s
  | .doorController => doorReply src payload s
  | .amplifierRack => rackReply src payload s
  | .tenantConsole => consoleReply src payload s

/-- R156: the LOST notice handed to the owner. -/
def notifyLost (st : Station) (s : State) : State :=
  match st.kind with
  | .liftInterface => liftLost st.address s
  | .doorController => doorsLost st.address s
  | .amplifierRack => rackLost st.address s
  | .tenantConsole => consoleLost st.address s

/-- R154: a poll transaction ends ANSWERED, by a reply from the source `src`; a record loaded anew since the poll takes the
answer too (R158), while the owner knows the reply by its source (log entry 48). -/
def pollAnswered (i : Fin 48) (src : Byte) (payload : List Byte) (s : State) : State :=
  match s.sline.stations.get i with
  | none => s
  | some st =>
    let st' := { st with lost := false, noAnswer := 0, lastReply := some (now s) }
    let online := onlineNotice st src s
    let s := setStation i (some st') s
    let s := if st.lost then
        reportStation i st' (appendLog .stationOnline (.stationRecord i) (.station st.address st.kind) s)
      else s
    deliver st.kind online src payload s

/-- R155, R156: a poll transaction ends with NO ANSWER. -/
def pollUnanswered (i : Fin 48) (s : State) : State :=
  match s.sline.stations.get i with
  | none => s
  | some st =>
    if st.lost then s
    else if st.noAnswer < 2 then setStation i (some { st with noAnswer := st.noAnswer + 1 }) s
    else
      let st' := { st with lost := true, noAnswer := 3 }
      notifyLost st' (reportStation i st' (appendLog .stationLost (.stationRecord i) (.station st.address st.kind)
        (setStation i (some st') s)))

/-- R145: the entry ON LINE. -/
def onLine (s : State) : Option Forward := s.cls.queue.find? (·.onLine)

/-- R145: the entry ON LINE leaves the queue. -/
def dropOnLine (s : State) : State :=
  { s with cls := { s.cls with queue := s.cls.queue.filter fun e => !e.onLine } }

/-- R145, R146: a forward transaction ends ANSWERED; an answer above 62 bytes is cut. -/
def forwardAnswered (payload : List Byte) (s : State) : State :=
  match onLine s with
  | none => s
  | some e =>
    queueReport e.frame.src 4 (.serviceAnswer e.late (decide (62 < payload.length)) e.frame.dst (payload.take 62)) (dropOnLine s)

/-- R145, R146: a forward transaction ends with NO ANSWER. -/
def forwardUnanswered (s : State) : State :=
  match onLine s with
  | none => s
  | some e =>
    queueReport e.frame.src 4 (.forwardFailed e.frame.dst e.frame.cls e.frame.payload.head? e.late) (dropOnLine s)

/-- R131: the transaction in progress ends, `answer` the payload of its reply or none; the outcome of a poll whose record
has been taken out of use is discarded (R158). -/
def endTxn (answer : Option (List Byte)) (s : State) : State :=
  match s.sline.txn with
  | none => s
  | some t =>
    let s := { s with sline := { s.sline with txn := none } }
    match t.kind, answer with
    | .poll i, some payload => pollAnswered i t.dest payload s
    | .poll i, none => pollUnanswered i s
    | .withdrawn, _ => s
    | .forward, some payload => forwardAnswered payload s
    | .forward, none => forwardUnanswered s

/-- R130: the kind of the reply a transaction awaits. -/
def awaited (t : Txn) : Byte :=
  match t.kind with
  | .poll _ | .withdrawn => kindStationReply
  | .forward => kindServiceAnswer

/-- R123, R130: a good frame completed on the S-line: the reply of the transaction in progress if it meets R130, a
candidate that does not if there is one in progress, and ignored otherwise. -/
def takeReply (h : Hdr) (kind : Byte) (payload : List Byte) (s : State) : State :=
  let s := setRx .s .hunt s
  match s.sline.txn with
  | none => s
  | some t => endTxn (if h.src = t.dest ∧ kind = awaited t then some payload else none) s

/-- R131: the close of the answer window.  The command is taken at its word: with no frame begun it ends the transaction
though the window has not opened (DEDUCED, log entry 21). -/
def closeWindow (s : State) : State :=
  match s.sline.txn with
  | none => s
  | some t =>
    if t.candidate then { s with sline := { s.sline with txn := some { t with window := none } } } else endTxn none s

/-- R130: the answer window opens, 20 ms, at the end of the bridge's frame; the receiver, no longer held, waits in HUNT for
2 ms of silence (R119). -/
def openWindow (s : State) : State :=
  match s.sline.txn with
  | none => s
  | some t => setRx .s .hunt { s with sline := { s.sline with txn := some { t with window := some 2 } } }

/-- R130: a frame begun within the window is the only candidate. -/
def markCandidate (s : State) : State :=
  match s.sline.txn with
  | none => s
  | some t =>
    if t.window.isSome then { s with sline := { s.sline with txn := some { t with candidate := true } } } else s

/-- R131: a line's receiver has discarded a frame; on the S-line a candidate so discarded ends its transaction. -/
def discarded (l : Line) (s : State) : State :=
  match l with
  | .p => s
  | .s => if s.sline.txn.any (·.candidate) then endTxn none s else s

/-! ### Receiver events (R119) -/

/-- R119: what a receiver makes of an event of its line; while the bridge transmits it is held in HUNT and makes nothing of
it. -/
def receive (l : Line) (f : State → State) (s : State) : State := if transmitting s l then setRx l .hunt s else f s

/-- R119, R130: the first good character of a frame; in a gap of a turn it abandons the turn (R128). -/
def beginFrame (l : Line) (b : Byte) : State → State :=
  receive l fun s =>
    if (trunk s l).rx = .ready then
      let s := setRx l (.inFrame [b]) s
      match l with
      | .p => breakTurn s
      | .s => markCandidate s
    else s

/-- R119: a broken character; in a gap of a turn it abandons the turn (R128). -/
def hearBroken (l : Line) : State → State :=
  receive l fun s =>
    match (trunk s l).rx with
    | .inFrame _ => noteHeard l (discarded l (setRx l .hunt s))
    | _ => noteHeard l (setRx l .hunt s)

/-- R119: a character heard in HUNT, which restarts a measurement of silence that the model keeps outside its state (log
entry 12); in a gap of a turn it abandons the turn (R128). -/
def hearInHunt (l : Line) : State → State :=
  receive l fun s => if (trunk s l).rx = .hunt then noteHeard l s else s

/-- R119: byte 4 taken with L above 64; without a frame being collected there is no byte 4. -/
def hearLong (l : Line) : State → State :=
  receive l fun s =>
    match (trunk s l).rx with
    | .inFrame _ => discarded l (setRx l .hunt s)
    | _ => s

/-- R119, R120: a completed frame that is not good. -/
def takeBadFrame (l : Line) (s : State) : State := discarded l (setRx l .hunt s)

/-- R118, R119: silence reaches 2 ms. -/
def fallSilent (l : Line) : State → State :=
  receive l fun s =>
    match (trunk s l).rx with
    | .inFrame _ => takeRate l (discarded l (setRx l .ready s))
    | _ => takeRate l (setRx l .ready s)

/-- R130, R131: a candidate that fails the tests or was discarded; the receiver is left as its cause leaves it.  The command
is taken at its word: it ends the transaction though no candidate has begun (DEDUCED, log entry 21). -/
def rejectCandidate (cause : RejectCause) (s : State) : State :=
  match s.sline.txn with
  | none => s
  | some _ => endTxn none (setRx .s (if cause = .silence then .ready else .hunt) s)

/-- R152: the quiet-line timer expires. -/
def quietExpiry (s : State) : State :=
  if s.sline.quietTimer.isSome then { s with sline := { s.sline with mode := .quiet, quietTimer := none } } else s

/-! ### Changed commands (R151) -/

/-- R59, R151: whether an event has changed the command of a car of an interface. -/
def carChanged (before s : State) (a : Byte) : Bool :=
  (List.finRange 8).any fun i => match before.lifts.cars.get i, s.lifts.cars.get i with
    | some c, some d =>
      (before.lifts.banks.get c.bank).iface == a && (s.lifts.banks.get d.bank).iface == a &&
        carCommand before c != carCommand s d
    | _, _ => false

/-- R98, R151: whether an event has changed what a rack of an address is told. -/
def rackChanged (before s : State) (a : Byte) : Bool :=
  (List.finRange 4).any fun r =>
    (before.ann.racks.get r).address == a && (s.ann.racks.get r).address == a && rackPoll before r != rackPoll s r

/-- R77, R151: whether an event has changed the commanded state of a door point of an address. -/
def pointChanged (before s : State) (a : Byte) : Bool :=
  (List.finRange 128).any fun i => match before.doors.points.get i, s.doors.points.get i with
    | some p, some q => p.controller == a && q.controller == a && p.commanded != q.commanded
    | _, _ => false

/-- R112, R151: whether an event has changed the page status or the regime lamp of a console of an address. -/
def consoleChanged (before s : State) (a : Byte) : Bool :=
  (List.finRange 16).any fun e => match before.ann.tenants.get e, s.ann.tenants.get e with
    | some t, some u => t.console == a && u.console == a &&
        (t.status != u.status || before.regime.state != s.regime.state)
    | _, _ => false

/-- R151: whether an event has changed the content of a station's poll, or what an owner's record that names the address
asks of it though the poll does not carry that: it carries another record of the address (R153; log entry 44), or the
station is not of that owner's kind (DEDUCED, log entry 61). -/
def commandsChanged (before s : State) (st : Station) : Bool :=
  pollContent before st != pollContent s st || carChanged before s st.address || pointChanged before s st.address ||
    rackChanged before s st.address || consoleChanged before s st.address

/-- R151: whether a record in use before and after an event, at the same address and of the same kind, has had its commands
changed by the event. -/
def contentChanged (before s : State) (i : Fin 48) : Bool :=
  match before.sline.stations.get i, s.sline.stations.get i with
  | some a, some b => a.address == b.address && a.kind == b.kind && commandsChanged before s b
  | _, _ => false

/-- R151: the addresses whose owners report in turn: lift interfaces in car order, controllers in point order, racks,
consoles. -/
def ownerAddresses (s : State) : List Byte :=
  s.lifts.cars.rows.filterMap (·.map fun c => (s.lifts.banks.get c.bank).iface) ++
    s.doors.points.rows.filterMap (·.map (·.controller)) ++ s.ann.racks.rows.map (·.address) ++
    s.ann.tenants.rows.filterMap (·.map (·.console))

/-- R151: whether an owner has changed, within the event, what the poll to a record's address carries, though the content
may be back where it was.  The report names an address, so the record joins whatever its kind (DEDUCED, log entry 61). -/
def stationNoted (s : State) (i : Fin 48) : Bool :=
  (s.sline.stations.get i).any fun st => s.notes.owners.contains st.address

/-- R59, R77, R98, R112, R151: after an event, every station whose content it changed joins the early-poll list, in the
order of the owners' reports. -/
def reportChanges (before s : State) : State :=
  let changed := (List.finRange 48).filter fun i => contentChanged before s i || stationNoted s i
  let inOrder := (ownerAddresses s).filterMap (stationAt s)
  let t := if changed = [] then s
    else (inOrder.filter (changed.contains ·) ++ changed).foldl (fun s i => joinEarly i s) s
  { t with notes := { t.notes with owners := [] } }

end Sys2Proof.Machine
end

