-- ==== Sys2Proof/Machine/Sequencer.lean ====
section
/-! DEFINITION. The Evacuation Sequencer: chapter 2. -/

namespace Sys2Proof.Machine

/-! ### The arithmetic of the plan (section 2.4) -/

/-- R36: the alarm floors: the floors below NF of the zones in ALARM. -/
def alarmFloors (s : State) : List (Fin 64) :=
  s.zones.table.rows.filterMap fun z => if z.state = .alarm then z.cfg.floor.filter (inUse s) else none

/-- R36: the distance of floor `f` from alarm floor `a`. -/
def distance (f a : Fin 64) : Nat :=
  if f = a then 0 else if a < f then 2 * (f.val - a.val) - 1 else 2 * (a.val - f.val)

/-- R36: the urgency of a floor: the least distance over the alarm floors, 127 when there are none. -/
def urgencyOf (alarms : List (Fin 64)) (f : Fin 64) : Nat := (alarms.map (distance f)).foldl min 127

/-- R30: whether a floor of the table in use is in ALERT. -/
def isAlert (s : State) (f : Fin 64) : Bool := inUse s f && (s.seq.floors.get f).state == .alert

/-- R37: the candidates in candidate order: urgency ascending, then floor number ascending. -/
def candidates (s : State) : List (Fin 64) :=
  ((List.finRange 64).filter (isAlert s)).insertionSort fun a b =>
    (s.seq.floors.get a).urgency < (s.seq.floors.get b).urgency ∨
      ((s.seq.floors.get a).urgency = (s.seq.floors.get b).urgency ∧ a ≤ b)

/-- R31: whether a stair is available to a floor. -/
def available (s : State) (f : Fin 64) (st : Fin 4) : Bool :=
  (s.seq.floors.get f).mask.getLsbD st.val && decide (0 < (s.seq.stairs.get st).capacity) && (s.seq.stairs.get st).inService

/-- R38: the stairs available to a floor, in the order A, B, C, D. -/
def availableStairs (s : State) (f : Fin 64) : List (Fin 4) := (List.finRange 4).filter (available s f)

/-- R38: the share of an occupancy on each of `n` stairs, rounded up. -/
def shareOf (occupancy n : Nat) : Nat := (occupancy + n - 1) / n

/-- R38: a floor's share as the stairs now stand. -/
def floorShare (s : State) (f : Fin 64) : Nat := shareOf (s.seq.floors.get f).occupancy (availableStairs s f).length

/-- R39: a floor fits when every stair available to it has room left in its budget for the share. -/
def fits (s : State) (f : Fin 64) : Bool :=
  (availableStairs s f).all fun st =>
    decide ((s.seq.stairs.get st).committed + floorShare s f ≤ (s.seq.stairs.get st).budget)

/-- R40 step 1: the drain time of a share on a stair, in seconds, rounded up. -/
def drainTime (share capacity : Nat) : Nat := (share * 60 + capacity - 1) / capacity

/-- R35: a number of seconds as a value of the plan clock, which counts to 4,294,967,295 (log entry 29). -/
def planValue (n : Nat) : Nat := if n < 2 ^ 32 then n else (Config.planClockPast n).toNat

/-- R32: an entry placed in a load list by its expiry, after the entries of equal expiry. -/
def insertLoad (e : Load) (ls : List Load) : List Load :=
  ls.takeWhile (fun x => x.expiry ≤ e.expiry) ++ e :: ls.dropWhile (fun x => x.expiry ≤ e.expiry)

/-! ### Records -/

def setFloor (f : Fin 64) (x : Floor) (s : State) : State :=
  { s with seq := { s.seq with floors := s.seq.floors.set f x } }

def setStair (st : Fin 4) (x : Stair) (s : State) : State :=
  { s with seq := { s.seq with stairs := s.seq.stairs.set st x } }

/-- R40 steps 1 to 3: a stair charged with a floor's share. -/
def charge (f : Fin 64) (share : Nat) (s : State) (st : Fin 4) : State :=
  let x := s.seq.stairs.get st
  setStair st { x with
    loads := insertLoad { floor := f, share, expiry := planValue (s.seq.planClock + drainTime share x.capacity) } x.loads
    committed := x.committed + share } s

/-- R38: a floor found with no available stair; NO STAIR is logged the first time in a regime; R38 names no field
for its detail, which is 0 (DESIGN CHOICE, log entry 46). -/
def noteNoStair (f : Fin 64) (s : State) : State :=
  if (s.seq.floors.get f).noStair then s
  else appendLog .noStair (.floor f) .zero (setFloor f { s.seq.floors.get f with noStair := true } s)

/-- R40: the commit of a promotion.  A floor with n = 0 has its NO STAIR logged before its FLOOR PROMOTED; R38, R40 and R52
do not order the two (DESIGN CHOICE, log entry 59). -/
def promote (cause : PromotionCause) (f : Fin 64) (s : State) : State :=
  let avail := availableStairs s f
  let share := floorShare s f
  let s := if avail = [] then noteNoStair f s else if share = 0 then s else avail.foldl (charge f share) s
  let x := s.seq.floors.get f
  appendLog .floorPromoted (.floor f) (.promoted cause x.urgency)
    (setFloor f { x with state := .evacuate, cause := some cause, promotedAt := now s } s)

/-- R43: a phase evaluation over the candidates, with the number of floors it may still promote. -/
def evaluate : List (Fin 64) → Nat → State → State
  | [], _, s => s
  | _ :: _, 0, s => s
  | f :: fs, k + 1, s =>
    if availableStairs s f = [] then evaluate fs (k + 1) (noteNoStair f s)
    else if fits s f then evaluate fs k (promote .phase f s)
    else s

/-- R35: the phase timer started at the full interval. -/
def startPhase (s : State) : State :=
  { s with seq := { s.seq with phase := { left := ticks s.params.phaseInterval, running := true } } }

/-- R45: whether no ALERT floor remains in the floor table in use. -/
def noAlert (s : State) : Bool := (List.finRange 64).all fun f => !isAlert s f

/-- R45: the sequencer goes to COMPLETE, the phase timer stopped with remainder 0. -/
def complete (s : State) : State :=
  { s with seq := { s.seq with state := .complete, phase := { left := 0, running := false } } }

/-- R45: completion at the moment no ALERT floor remains while the regime is ACTIVE. -/
def completeIfDone (s : State) : State :=
  if s.regime.state = .active ∧ noAlert s = true then complete s else s

/-- R43, R45: one phase evaluation. -/
def phaseEvaluation (s : State) : State := completeIfDone (evaluate (candidates s) s.params.floorsPerStep s)

/-! ### Reports and notices -/

/-- R47: the floors in EVACUATE. -/
def evacuateSet (s : State) : FloorSet := setOf fun f => inUse s f && (s.seq.floors.get f).state == .evacuate

/-- R47: the number of ALERT floors. -/
def alertCount (s : State) : Nat := ((List.finRange 64).filter (isAlert s)).length

/-- R47: the line of a stair. -/
def stairLine (x : Stair) : StairLine :=
  { inService := x.inService, committed := x.committed, budget := x.budget, entries := x.loads.length }

/-- R47: the SEQUENCER REPORT of an event that began in state `before`. -/
def seqReportOf (cause : SeqCause) (before s : State) : SeqReport :=
  { cause, state := s.seq.state, remainder := seconds s.seq.phase.left, planClock := s.seq.planClock
    promoted := evacuateSet s &&& ~~~ evacuateSet before
    evacuate := evacuateSet s, alertCount := alertCount s, stairs := s.seq.stairs.rows.map stairLine }

/-- R47: queue a SEQUENCER REPORT at class 2. -/
def seqReport (dest : Byte) (cause : SeqCause) (before s : State) : State :=
  queueReport dest 2 (.sequencer (seqReportOf cause before s)) s

/-- R53: the floors whose state an event changed. -/
def changedFloors (before s : State) : FloorSet :=
  setOf fun f => (s.seq.floors.get f).state != (before.seq.floors.get f).state

/-- R53: whether an event changed any stair's in-service flag. -/
def stairsChanged (before s : State) : Bool :=
  (List.finRange 4).any fun st => (s.seq.stairs.get st).inService != (before.seq.stairs.get st).inService

/-- R53: whether an event is followed by a floor change notice. -/
def noticeDue (before s : State) : Bool := changedFloors before s != 0 || stairsChanged before s

/-! ### Events -/

/-- R33: a zone in ALARM withdraws its stair if it is a STAIR SMOKE zone and the stair is in service. -/
def withdrawFor (z : Fin 256) (s : State) : State :=
  let x := s.zones.table.get z
  match x.cfg.stair with
  | some st =>
    if x.cfg.kind = .stairSmoke ∧ x.state = .alarm ∧ (s.seq.stairs.get st).inService = true then
      appendLog .stairWithdrawn (.stair st) (.zone z)
        (setStair st { s.seq.stairs.get st with inService := false } s)
    else s
  | none => s

/-- R36, R41, R42: the urgency of every ALERT floor in use computed over the alarm floors as they stand. -/
def computeUrgencies (s : State) : State :=
  let alarms := alarmFloors s
  { s with seq := { s.seq with floors := mapIdx (fun f x =>
      if inUse s f && x.state == .alert then { x with urgency := urgencyOf alarms f } else x) s.seq.floors } }

/-- R41, R42: the ALERT floors of urgency 0 to 2 promoted with cause IMMEDIATE, in candidate order. -/
def promoteImmediate (s : State) : State :=
  ((candidates s).filter fun f => (s.seq.floors.get f).urgency ≤ 2).foldl (fun s f => promote .immediate f s) s

/-- R41 step 3: every NORMAL floor in use goes to ALERT and the no-stair marks are cleared. -/
def alertFloors (s : State) : State :=
  { s with seq := { s.seq with floors := mapIdx (fun f x =>
      let x := if inUse s f && x.state == .normal then { x with state := .alert } else x
      { x with noStair := false }) s.seq.floors } }

/-- R41: the regime entry, steps 1 to 6; step 2 takes the zones in ascending order (log entry 33). -/
def seqEntry (s : State) : State :=
  let s := { s with seq := { s.seq with planClock := 0, planTicks := 0 } }
  let s := forEach 256 withdrawFor s
  let s := promoteImmediate (computeUrgencies (alertFloors s))
  if noAlert s then complete s
  else startPhase { s with seq := { s.seq with state := .running } }

/-- R42: a zone change notice in ACTIVE, naming the zones that entered ALARM; a report follows if it withdrew a stair or
promoted a floor. -/
def seqZoneChange (entered : List (Fin 256)) (s : State) : State :=
  let t := entered.foldl (fun s z => withdrawFor z s) s
  let t := completeIfDone (promoteImmediate (computeUrgencies t))
  if noticeDue s t then seqReport 0 .zoneChange s t else t

/-- R52: the general promotion. -/
def promoteGeneral (s : State) : State :=
  complete ((candidates s).foldl (fun s f => promote .general f s) s)

/-- R54: a floor of the table in use after the regime reset. -/
def resetFloor (x : Floor) : Floor :=
  { x with state := .normal, cause := none, promotedAt := 0, urgency := 127, noStair := false }

/-- R54: a stair after the regime reset. -/
def resetStair (x : Stair) : Stair := { x with loads := [], committed := 0, inService := true }

/-- R54: the transition to RESTORING, without its report. -/
def seqReset (s : State) : State :=
  { s with seq := { s.seq with
      floors := mapIdx (fun f x => if inUse s f then resetFloor x else x) s.seq.floors
      stairs := s.seq.stairs.map resetStair
      state := .idle, phase := { left := 0, running := false }, planClock := 0, planTicks := 0 } }

/-- R46: the first entry of a stair's load list leaves it. -/
def drainStair (st : Fin 4) (s : State) : State :=
  let x := s.seq.stairs.get st
  match x.loads with
  | [] => s
  | e :: rest => setStair st { x with loads := rest, committed := x.committed - e.share } s

end Sys2Proof.Machine
end

