-- ==== Sys2Proof/Machine/Regime.lean ====
section
/-! DEFINITION. The regime transitions and the notices that go to the four job blocks (R15, R22 to R27, R53), the brigade
commands (R48 to R52) and the phase timer (R44).

The job blocks take a transition in the order Sequencer, Lift Recall, Doors, Announcements (section 1.7); the floor
change notice of a regime entry or reset comes before the transition, where it has no effect (R53; log entry 14). -/

namespace Sys2Proof.Machine

/-- R175: a regime that leaves QUIESCENT abandons a restart that waits. -/
def abandonRestart (s : State) : State :=
  if s.mgmt.wait.isSome then
    appendLog .restart .none (.restart .abandoned) { s with mgmt := { s.mgmt with wait := none } }
  else s

/-- R22, R23, R152, R175: the regime goes to ACTIVE; `plan` is what the Sequencer makes of the transition.  A RESTART that
waits is abandoned, with its record, after the record of the regime and before the job blocks act, a place R161 and R175
leave open (DEDUCED, log entry 14). -/
def goActive (cause : RegimeCause) (plan : State → State) (s : State) : State :=
  let s := setRegime .active cause s
  let s := abandonRestart { s with sline := { s.sline with quietTimer := none } }
  annEntry (doorEntry (liftEntry (plan s)))

/-- R41: the Sequencer's regime entry with its report. -/
def planEntry (s : State) : State := seqReport 0 .regimeEntry s (seqEntry s)

/-- R53: the floor change notice of an event that began in state `before`, handed to the Door Unit and then to the Scheduler,
which R53 does not order (DEDUCED, log entry 14). -/
def floorNotice (before s : State) : State :=
  if noticeDue before s then annNotice (doorNotice (changedFloors before s) s) else s

/-- R15, R42, R58: a zone change notice taken in ACTIVE, `entered` the zones that entered ALARM. -/
def zoneNotice (entered : List (Fin 256)) (s : State) : State :=
  let t := seqZoneChange entered s
  floorNotice s (liftZoneChange t)

/-- R15, R23: what follows the zones changed by one report: the regime entry, or a zone change notice in ACTIVE. -/
def zonesChanged (entered : List (Fin 256)) (s : State) : State :=
  match entered with
  | [] => if s.regime.state = .active then zoneNotice [] s else s
  | z :: _ => if s.regime.state = .active then zoneNotice entered s else goActive (.zoneAlarm z) planEntry s

/-- R25 steps 3 and 4, R54, R81, R115: the transition to RESTORING. -/
def goRestoring (s : State) : State :=
  let s := { s with regime := { s.regime with allClearDone := false, relockDone := false } }
  let s := setRegime .restoring .regimeReset s
  annReset (doorReset (seqReport 0 .regimeReset s (seqReset s)))

/-! ### Brigade commands and the phase timer (R44, R48 to R52) -/

/-- R47: the answer to a brigade command, queued to its source; `before` is the state in which the event began. -/
def answerCommand (src : Byte) (code : Option Byte) (a : Answer) (before s : State) : State :=
  seqReport src (.command code a) before s

/-- R49: PHASE HOLD. -/
def hold (s : State) : Answer × State :=
  if s.seq.state = .running then
    (.accepted, { s with seq := { s.seq with state := .held, phase := { s.seq.phase with running := false } } })
  else (.noChange, s)

/-- R50: PHASE STEP; in RUNNING the timer starts again unless the evaluation completed the plan. -/
def stepPlan (s : State) : Answer × State :=
  match s.seq.state with
  | .held => (.accepted, phaseEvaluation s)
  | .running =>
    let t := phaseEvaluation s
    (.accepted, if t.seq.state = .running then startPhase t else t)
  | _ => (.noChange, s)

/-- R51: PHASE RUN. -/
def run (s : State) : Answer × State :=
  if s.seq.state = .held then (.accepted, startPhase { s with seq := { s.seq with state := .running } })
  else (.noChange, s)

/-- R47, R53: a Sequencer command answered, then its floor change notice. -/
def planCommand (src : Byte) (c : BrigadeCommand) (f : State → Answer × State) (s : State) : State :=
  let (a, t) := f s
  floorNotice s (answerCommand src (some (brigadeCode c)) a s t)

/-- R47, R72, R110, R111: a command of another owner answered. -/
def ownerCommand (src : Byte) (c : BrigadeCommand) (f : State → Answer × State) (s : State) : State :=
  let (a, t) := f s
  answerCommand src (some (brigadeCode c)) a s t

/-- R52: the general promotion of a regime entry caused by GENERAL EVACUATE, with the one report. -/
def generalEntry (src : Byte) (s : State) : State :=
  answerCommand src (some (brigadeCode .generalEvacuate)) .accepted s (promoteGeneral (seqEntry s))

/-- R52: GENERAL EVACUATE. -/
def evacuateAll (src : Byte) (s : State) : State :=
  if s.regime.state = .active then planCommand src .generalEvacuate (fun s => (.accepted, promoteGeneral s)) s
  else goActive .generalEvacuate (generalEntry src) s

/-- R44: the phase timer expires in RUNNING. -/
def phaseExpiry (s : State) : State :=
  if s.seq.state = .running ∧ s.seq.phase.running = true then
    let t := phaseEvaluation s
    let t := if t.seq.state = .running then startPhase t else t
    floorNotice s (seqReport 0 .phaseEvaluation s t)
  else s

end Sys2Proof.Machine
end

