-- ==== Sys2Proof/Machine/Zones.lean ====
section
/-! DEFINITION. Zone Intake: chapter 1. -/

namespace Sys2Proof.Machine

def setZone (z : Fin 256) (x : Zone) (s : State) : State :=
  { s with zones := { s.zones with table := s.zones.table.set z x } }

/-! ### The map and the isolation list (R1 to R3, R16, R17) -/

/-- R1: whether a point matches an entry of the map. -/
def covers (e : MapEntry) (d : Device) : Bool := e.panel == d.panel && decide (e.low ≤ d.point) && decide (d.point ≤ e.high)

/-- R1: the zone of the first entry that a point matches. -/
def mapped (s : State) (d : Device) : Option (Fin 256) :=
  (s.zones.map.rows.find? fun e => e.any fun e => covers e d).bind fun e => e.map (·.zone)

/-- R2: the zone a point belongs to. -/
def zoneOf (s : State) (d : Device) : Fin 256 := (mapped s d).getD s.params.catchAll

/-- R3: whether an isolation entry sets aside a point's reports, its zone given. -/
def isolates (d : Device) (z : Fin 256) (e : IsoEntry) : Bool :=
  e.active && match e.scope with
    | .points panel low high => panel == d.panel && decide (low ≤ d.point) && decide (d.point ≤ high)
    | .zone y => y == z

/-- R3: whether a point is isolated. -/
def isolated (s : State) (d : Device) (z : Fin 256) : Bool := s.zones.isolation.any (isolates d z)

/-- R17: the zones that the points `low` to `high` of a panel touch, found map entry by map entry: what an entry takes
of the points still unmatched, the rest left to the entries after it and at last to the catch-all zone.  The points still
unmatched are kept as ranges. -/
def touchedBy (panel : Fin 16) : List (Option MapEntry) → List (Nat × Nat) → List (Fin 256) × List (Nat × Nat)
  | [], left => ([], left)
  | none :: es, left => touchedBy panel es left
  | some e :: es, left =>
    if e.panel = panel then
      let hit := left.any fun r => decide (r.1 ≤ e.high.val) && decide (e.low.val ≤ r.2)
      let left := left.flatMap fun r =>
        if r.2 < e.low.val ∨ e.high.val < r.1 then [r]
        else (if r.1 < e.low.val then [(r.1, e.low.val - 1)] else []) ++
          (if e.high.val < r.2 then [(e.high.val + 1, r.2)] else [])
      let more := touchedBy panel es left
      (if hit then e.zone :: more.1 else more.1, more.2)
    else touchedBy panel es left

/-- R17: the zones an entry's scope touches. -/
def touched (s : State) : Scope → List (Fin 256)
  | .zone z => [z]
  | .points panel low high =>
    let r := touchedBy panel s.zones.map.rows [(low.val, high.val)]
    if r.2 = [] then r.1 else r.1 ++ [s.params.catchAll]

/-- R18, R19: whether every zone a scope touches is QUIET. -/
def allQuiet (s : State) (c : Scope) : Bool := (touched s c).all fun z => (s.zones.table.get z).state == .quiet

/-- R16: an ACTIVE whole-zone entry sets its zone's ISOLATED flag. -/
def markIsolated (e : IsoEntry) (s : State) : State :=
  match e.scope with
  | .zone z => if e.active then setZone z { s.zones.table.get z with isolated := true } s else s
  | .points _ _ _ => s

/-- R19: the PENDING entries re-examined; a change of status writes the list to the store. -/
def reexamine (s : State) : State :=
  let list := s.zones.isolation.map fun e => { e with active := e.active || allQuiet s e.scope }
  if list = s.zones.isolation then s
  else
    let t := list.foldl (fun s e => markIsolated e s) { s with zones := { s.zones with isolation := list } }
    beginWrite { items := isolationItems t, reply := none } t

/-! ### Detections (R5, R7 to R12) -/

/-- R5: the effective verification of a zone. -/
def effective (x : Zone) : Verification :=
  match x.cfg.kind with
  | .callPoint | .sprinklerFlow => .none
  | _ => x.cfg.verification

/-- R12: a zone gone to ALARM from QUIET or PRE-ALARM; a first device already recorded is kept. -/
def toAlarm (s : State) (d : Device) (x : Zone) : Zone :=
  match x.state with
  | .quiet => { x with state := .alarm, first := some d, windowStart := now s, window := none }
  | _ => { x with state := .alarm, window := none }

/-- R8: a zone gone to PRE-ALARM. -/
def toPreAlarm (s : State) (d : Device) (x : Zone) : Zone :=
  { x with state := .preAlarm, first := some d, windowStart := now s, window := some (ticks x.cfg.knock) }

/-- R10: whether a RE-ALARM zone's quiet time has run since its window start. -/
def quietTimeRun (s : State) (x : Zone) : Bool := decide (ticks x.cfg.quiet ≤ elapsed (now s) x.windowStart)

/-- R5, R8 to R11: a zone after a DETECT that finds no other zone of its group in PRE-ALARM; the count is R7's. -/
def applyDetect (s : State) (d : Device) (x : Zone) : Zone :=
  match x.state, effective x with
  | .alarm, _ => x
  | _, .none => toAlarm s d x
  | .quiet, _ => toPreAlarm s d x
  | .preAlarm, .doubleKnock => if x.first = some d then x else toAlarm s d x
  | .preAlarm, .reAlarm => if x.first = some d ∧ quietTimeRun s x = false then x else toAlarm s d x

/-- R12: the other zones of a zone's group in PRE-ALARM. -/
def knockers (s : State) (z : Fin 256) : List (Fin 256) :=
  match (s.zones.table.get z).cfg.group with
  | none => []
  | some g => (List.finRange 256).filter fun y =>
      decide (y ≠ z) && (s.zones.table.get y).cfg.group == some g && (s.zones.table.get y).state == .preAlarm

/-- R7: one detection more, saturating. -/
def countUp (x : Zone) : Zone := { x with count := min 255 (x.count + 1) }

/-- R7 to R12: the zones after a DETECT. -/
def detectZones (d : Device) (z : Fin 256) (s : State) : State :=
  let ks := knockers s z
  let x := countUp (s.zones.table.get z)
  let s' := setZone z (if ks = [] then applyDetect s d x else if x.state = .alarm then x else toAlarm s d x) s
  ks.foldl (fun u y => setZone y (toAlarm s d (u.zones.table.get y)) u) s'

/-- R15: queue a zone's report as its record stands. -/
def reportZone (z : Fin 256) (s : State) : State :=
  let x := s.zones.table.get z
  queueReport 0 1 (.zone z x.state x.first x.count x.fault x.isolated) s

/-- R15: the ZONE STATE record and the report of a zone whose state has changed. -/
def announceZone (seq : Byte) (s : State) (z : Fin 256) : State :=
  reportZone z (appendLog .zoneState (.zone z) (.zoneState (s.zones.table.get z).state seq) s)

/-- R15: the zones whose state an event changed, ascending. -/
def changedZones (before s : State) : List (Fin 256) :=
  (List.finRange 256).filter fun z => (s.zones.table.get z).state != (before.zones.table.get z).state

/-- R15, R23: the zones an event changed are logged and reported, then the regime or the notice follows. -/
def announceZones (seq : Byte) (before s : State) : State :=
  let zs := changedZones before s
  if zs = [] then s
  else
    let t := zs.foldl (announceZone seq) s
    zonesChanged (zs.filter fun z => (s.zones.table.get z).state == .alarm) t

/-- R8 to R12, R15, R23: a DETECT that has passed intake. -/
def takeDetect (d : Device) (z : Fin 256) (seq : Byte) (s : State) : State := announceZones seq s (detectZones d z s)

/-- R14: a FAULT or FAULT CLEAR that has passed intake. -/
def takeFault (isSet : Bool) (z : Fin 256) (seq : Byte) (s : State) : State :=
  let x := s.zones.table.get z
  if x.fault = isSet then s
  else reportZone z (appendLog .zoneFault (.zone z) (.zoneFault isSet seq) (setZone z { x with fault := isSet } s))

/-- R2, R3: intake of a report: the zone found, an unmapped report logged, an isolated one discarded and logged, and any
other handed on. -/
def intake (kind : AlarmKind) (d : Device) (seq : Byte) (f : Fin 256 → State → State) (s : State) : State :=
  let z := zoneOf s d
  let s := if (mapped s d).isNone then appendLog .unmappedReport (.point d) (.report kind seq) s else s
  if isolated s d z then appendLog .isolatedReport (.point d) (.report kind seq) s else f z s

/-! ### Window expiry and the regime reset (R13, R24 to R26) -/

/-- R13: a zone's window expires. -/
def windowExpiry (z : Fin 256) (s : State) : State :=
  let x := s.zones.table.get z
  if x.state = .preAlarm ∧ x.window.isSome = true then
    let t := setZone z { x with state := .quiet, first := none, window := none } s
    reexamine (announceZones 0 s (appendLog .unconfirmedDetection (.zone z) (.count x.count) t))
  else s

/-- R25 step 1, R26: a zone in PRE-ALARM or ALARM returned to QUIET. -/
def resetZone (x : Zone) : Zone :=
  if x.state = .quiet then x else { x with state := .quiet, first := none, count := 0, window := none }

/-- R25, R26: the zones returned to QUIET by an accepted regime reset. -/
def resetZones (s : State) : State := { s with zones := { s.zones with table := s.zones.table.map resetZone } }

/-- R25, R26: an accepted regime reset. -/
def acceptReset (s : State) : State :=
  match s.regime.state with
  | .restoring => s
  | .active => goRestoring (reexamine (resetZones s))
  | .quiescent => if changedZones s (resetZones s) = [] then s else reexamine (announceZones 0 s (resetZones s))

/-- R24: a REGIME RESET by its source. -/
def takeReset (src : Byte) (s : State) : State :=
  if src = s.addrs.mainPanel then acceptReset s else appendLog .resetRefused .none (.source src) s

/-! ### ISOLATE and DE-ISOLATE (R16, R18, R20) -/

/-- R18 step 4: a new entry appended, ACTIVE or PENDING. -/
def appendIsolation (c : Scope) (s : State) : State :=
  let e : IsoEntry := { scope := c, active := allQuiet s c }
  markIsolated e { s with zones := { s.zones with isolation := s.zones.isolation ++ [e] } }

/-- R20: an entry of identical scope removed; a whole-zone scope clears its zone's flag and reports the zone. -/
def removeIsolation (c : Scope) (s : State) : State :=
  let s := { s with zones := { s.zones with isolation := s.zones.isolation.filter fun e => e.scope != c } }
  match c with
  | .zone z => reportZone z (setZone z { s.zones.table.get z with isolated := false } s)
  | .points _ _ _ => s

/-- R18: whether the list holds an entry of a scope. -/
def holdsScope (s : State) (c : Scope) : Bool := s.zones.isolation.any fun e => e.scope == c

end Sys2Proof.Machine
end

