-- ==== Sys2Proof/Machine/Tables.lean ====
section
/-! DEFINITION. The application of one table entry by the table's owner (R170), and the entry that a record's
configuration makes (R172).

A code that names no value of its field, where the owner's rule says nothing of it, is refused like the ones it names
(log entry 16). -/

namespace Sys2Proof.Machine

/-! ### Zone Intake (R1, R4, R5) -/

/-- R1, R19: a zone map entry. -/
def applyZoneMap (i : Fin 128) (e : Option (Nat × Nat × Nat × Nat)) (s : State) : Option State :=
  let put := fun m => reexamine { s with zones := { s.zones with map := s.zones.map.set i m } }
  match e with
  | none => some (put none)
  | some (p, l, h, z) =>
    match index? 16 p, index? 4096 l, index? 4096 h, index? 256 z with
    | some panel, some low, some high, some zone =>
      if 1 ≤ p ∧ l ≤ h then some (put (some { panel, low, high, zone })) else none
    | _, _, _, _ => none

/-- R4, R5: a zone table entry; the dynamic fields stay. -/
def applyZone (z : Fin 256) (kind floor stair ver group knock quiet : Nat) (s : State) : Option State :=
  match ofCode zoneKinds kind, indexOrNone? 64 floor, indexOrNone? 4 stair, ofCode verifications ver, indexOrNone? 32 group with
  | some k, some f, some st, some v, some g =>
    if k = .stairSmoke ∧ st = none then none
    else
      let cfg : ZoneCfg := { kind := k, floor := f, stair := st, verification := v, group := g
                             knock := clamp 10 600 knock, quiet := clamp 0 30 quiet }
      some (setZone z { s.zones.table.get z with cfg } s)
  | _, _, _, _, _ => none

/-! ### Sequencer (R29, R31) -/

/-- R29: whether a stair mask names only stairs of capacity above 0. -/
def maskPresent (s : State) (mask : BitVec 4) : Bool :=
  (List.finRange 4).all fun st => !mask.getLsbD st.val || decide (0 < (s.seq.stairs.get st).capacity)

/-- R29: a floor table entry. -/
def applyFloor (f : Fin 64) (occupancy mask rack : Nat) (s : State) : Option State :=
  match index? 4 rack with
  | none => none
  | some r =>
    if mask = 0 ∨ 15 < mask ∨ maskPresent s (BitVec.ofNat 4 mask) = false then none
    else
      let s := if (s.seq.floors.get f).rack = r then s else takeFloorsOut (setOf fun g => g == f) s
      let s := setFloor f { s.seq.floors.get f with
        occupancy := clamp 0 511 occupancy, mask := BitVec.ofNat 4 mask, rack := r } s
      some (arbiter s)

/-- R31: a stair table entry. -/
def applyStair (st : Fin 4) (capacity window mode : Nat) (s : State) : Option State :=
  match ofCode releaseModes mode with
  | none => none
  | some m =>
    let w := clamp 1 15 window
    some (setStair st { s.seq.stairs.get st with capacity, window := w, mode := m, budget := capacity * w } s)

/-! ### Lift Recall (R55, R56) -/

/-- R55: a bank table entry. -/
def applyBank (b : Fin 2) (iface pf pz af az shaft timeout : Nat) (s : State) : Option State :=
  match index? 64 pf, indexOrNone? 256 pz, index? 64 af, indexOrNone? 256 az, indexOrNone? 256 shaft with
  | some primary, some primaryZone, some alternate, some alternateZone, some shaft =>
    if 126 < iface then none
    else
      let bank : Bank := { iface := BitVec.ofNat 8 iface, primary, primaryZone, alternate, alternateZone, shaft
                           timeout := clamp 60 600 timeout, recallFloor := primary, choice := .primary }
      some { s with lifts := { s.lifts with banks := s.lifts.banks.set b bank } }
  | _, _, _, _, _ => none

/-- R56: a car record as an applied entry puts it in use. -/
def freshCar (bank : Fin 2) (index : Fin 4) (served : FloorSet) : Car :=
  { bank, index, served, reported := none, state := .free, target := none, start := 0, timer := none
    compromised := false, before := none }

/-- R56: a car table entry. -/
def applyCar (i : Fin 8) (e : Option (Nat × Nat × FloorSet)) (s : State) : Option State :=
  if (s.lifts.cars.get i).any (·.state != .free) then none
  else
    let put := fun c => { s with lifts := { s.lifts with cars := s.lifts.cars.set i c } }
    match e with
    | none => some (put none)
    | some (b, x, served) =>
      match index? 2 (b - 1), index? 4 x with
      | some bank, some index =>
        let bk := s.lifts.banks.get bank
        let taken := (List.finRange 8).any fun j =>
          decide (j ≠ i) && (s.lifts.cars.get j).any fun c => c.bank == bank && c.index == index
        if b = 0 ∨ bk.iface = 0 ∨ taken = true ∨ inSet served bk.primary = false ∨ inSet served bk.alternate = false then none
        else some (put (some (freshCar bank index served)))
      | _, _ => none

/-! ### Doors (R74) -/

/-- R74: a point as an applied entry puts it in use. -/
def freshPoint (controller : Byte) (output : Fin 8) (floor : Fin 64) (stair : Fin 4) : DoorPoint :=
  { controller, output, floor, stair, commanded := .locked, feedback := none, supervision := .correct, mismatch := none
    pending := false, test := none }

/-- R74: the distinct controllers that the records in use name. -/
def controllers (s : State) : List Byte := (s.doors.points.rows.filterMap fun p => p.map (·.controller)).dedup

/-- R74: whether some other record in use names a controller. -/
def namedElsewhere (s : State) (i : Fin 128) (a : Byte) : Bool :=
  (List.finRange 128).any fun j => decide (j ≠ i) && (s.doors.points.get j).any fun p => p.controller == a

/-- R74, R85, R90: a point put in use; one that leaves FAULT or HELD OPEN by the load is logged and reported. -/
def putPoint (i : Fin 128) (p : DoorPoint) (s : State) : State :=
  match s.doors.points.get i with
  | some old => changePoint i .cleared old p s
  | none => setPoint i p s

/-- R74: a door point entry. -/
def applyDoorPoint (i : Fin 128) (e : Option (Nat × Nat × Nat × Nat)) (s : State) : Option State :=
  match e with
  | none =>
    let s := match s.doors.points.get i with
      | some old => putPoint i (freshPoint old.controller old.output old.floor old.stair) s
      | none => s
    some { s with doors := { s.doors with points := s.doors.points.set i none } }
  | some (c, o, f, st) =>
    match index? 8 o, index? 64 f, index? 4 st with
    | some output, some floor, some stair =>
      let a := BitVec.ofNat 8 c
      let taken := (List.finRange 128).any fun j =>
        decide (j ≠ i) && (s.doors.points.get j).any fun p => p.controller == a && p.output == output
      let full := !namedElsewhere s i a && decide (16 ≤ (controllers s).length)
      if c = 0 ∨ 126 < c ∨ taken = true ∨ full = true ∨ hasStation s a .doorController = false then none
      else some (putPoint i (freshPoint a output floor stair) s)
    | _, _, _ => none

/-! ### Announcements (R91, R112) -/

/-- R91: a message row entry. -/
def applyMessages (f : Fin 64) (alert evac a b c d refuge : Nat) (s : State) : Option State :=
  match index? 64 alert, index? 64 evac, index? 64 a, index? 64 b, index? 64 c, index? 64 d, index? 64 refuge with
  | some alert, some evacuate, some a, some b, some c, some d, some refuge =>
    let row : MessageRow := { alert, evacuate, useStair := ⟨[a, b, c, d], rfl⟩, refuge }
    some { s with ann := { s.ann with rows := s.ann.rows.set f row } }
  | _, _, _, _, _, _, _ => none

/-- R112: a tenant entry's page removed and the entry replaced. -/
def putTenant (i : Fin 16) (t : Option Tenant) (s : State) : State :=
  let s := match pageSlot s i with
    | some j => removeJob j s
    | none => s
  arbiter { s with ann := { s.ann with tenants := s.ann.tenants.set i t } }

/-- R112: a tenant table entry. -/
def applyTenant (i : Fin 16) (e : Option (Nat × FloorSet)) (s : State) : Option State :=
  match e with
  | none => some (putTenant i none s)
  | some (c, allowed) =>
    let console := BitVec.ofNat 8 c
    let taken := (List.finRange 16).any fun j => decide (j ≠ i) && (s.ann.tenants.get j).any (·.console == console)
    if c = 0 ∨ 126 < c ∨ taken = true ∨ hasStation s console .tenantConsole = false then none
    else some (putTenant i (some { console, allowed, status := .idle }) s)

/-! ### Filter list (R135) -/

/-- R135: the test an entry carries: RANGE, PAIR, MASK. -/
def testOf (test a b : Nat) : Option FilterTest :=
  match test with
  | 0 => if a ≤ b then some (.range (BitVec.ofNat 8 a) (BitVec.ofNat 8 b)) else none
  | 1 => some (.pair (BitVec.ofNat 8 a) (BitVec.ofNat 8 b))
  | 2 => some (.mask (BitVec.ofNat 8 a) (BitVec.ofNat 8 b))
  | _ => none

/-- R135: the action an entry carries, with the slot of a capture action. -/
def actionOf (action k : Nat) : Option FilterAction :=
  match action with
  | 0 => some .forward
  | 1 => some .forwardAndLog
  | 2 => some .gatedForward
  | 3 => some .drop
  | 4 => (index? 4 k).map .capture
  | 5 => (index? 4 k).map .captureAndForward
  | _ => none

/-- R135: a filter list entry. -/
def applyFilter (i : Fin 32) (enabled fld test a b action k : Nat) (s : State) : Option State :=
  match ofCode filterFields fld, testOf test a b, actionOf action k with
  | some field, some test, some action =>
    if 1 < enabled ∨ 255 < a ∨ 255 < b then none
    else
      let elem : FilterElem := { enabled := enabled == 1, field, test, action }
      some { s with cls := { s.cls with filter := s.cls.filter.set i elem } }
  | _, _, _ => none

/-! ### Stations (R147, R158) -/

/-- R151: a record leaves the early-poll list. -/
def leaveEarly (i : Fin 48) (s : State) : State := { s with sline := { s.sline with early := s.sline.early.erase i } }

/-- R158: a poll in progress of a record taken out of use has its outcome discarded, though the record may be back in use by
its end (DEDUCED, log entry 48). -/
def withdrawPoll (i : Fin 48) (s : State) : State :=
  { s with sline := { s.sline with
      txn := s.sline.txn.map fun t => if t.kind = .poll i then { t with kind := .withdrawn } else t } }

/-- R147, R158: a station table entry.  A record taken out of use leaves the records that name its address as they stand;
the timer of a point in MISMATCH runs on to FAULT (R74, R85; DEDUCED, log entry 42). -/
def applyStation (i : Fin 48) (e : Option (Nat × Nat)) (s : State) : Option State :=
  match e with
  | none => some (withdrawPoll i (setStation i none (leaveEarly i s)))
  | some (a, k) =>
    match ofCode stationKinds k with
    | none => none
    | some kind =>
      let address := BitVec.ofNat 8 a
      let taken := (List.finRange 48).any fun j => decide (j ≠ i) && (s.sline.stations.get j).any (·.address == address)
      if a = 0 ∨ 126 < a ∨ taken = true then none
      else if (s.sline.stations.get i).any fun st => st.address == address && st.kind == kind then some s
      else some (joinEarly i (setStation i (some { address, kind, lost := false, noAnswer := 0, lastReply := none }) (leaveEarly i s)))

/-! ### Parameters (Table 10-2) and addresses (R170) -/

/-- A parameter stored. -/
def setParams (f : Params → Params) (s : State) : State := { s with params := f s.params }

/-- R28: NF; the floors that leave use are taken out of every job. -/
def applyNf (v : Nat) (s : State) : State :=
  let nf := clamp 1 64 v
  let leaving := setOf fun f => decide (nf ≤ f.val) && decide (f.val < s.params.nf)
  let s := if leaving = 0 then s else takeFloorsOut leaving s
  arbiter (setParams ({ · with nf }) s)

/-- R93: the station address of a rack. -/
def applyRackAddress (r : Fin 4) (v : Nat) (s : State) : Option State :=
  let a := BitVec.ofNat 8 v
  if 126 < v ∨ (v ≠ 0 ∧ hasStation s a .amplifierRack = false) then none else some (reAddress r a s)

/-- R118: the rates a line can take. -/
def lineRates : List Nat := [9600, 19200, 38400]

/-- Table 10-2: a parameter of one number, by its index. -/
def applyParam (i v : Nat) (s : State) : Option State :=
  match i with
  | 0 => some (applyNf v s)
  | 1 => (index? 256 v).map fun z => setParams ({ · with catchAll := z }) s
  | 2 => some (setParams ({ · with phaseInterval := clamp 30 900 (v / 10 * 10) }) s)
  | 3 => some (setParams ({ · with floorsPerStep := clamp 1 8 v }) s)
  | 4 => (index? 64 v).map fun f => setParams ({ · with discharge := f }) s
  | 5 => some (setParams ({ · with relockTime := clamp 60 1800 v }) s)
  | 6 => some (setParams ({ · with feedbackTime := clamp 2 30 v }) s)
  | 7 => applyRackAddress 0 v s
  | 8 => applyRackAddress 1 v s
  | 9 => applyRackAddress 2 v s
  | 10 => applyRackAddress 3 v s
  | 11 => (index? 64 v).map fun m => setParams ({ · with allClear := m }) s
  | 12 => (index? 64 v).map fun m => setParams ({ · with testMessage := m }) s
  | 13 => some (setParams (fun p => { p with rest := p.rest.set 0 (clamp 0 10 v) }) s)
  | 14 => some (setParams (fun p => { p with rest := p.rest.set 1 (clamp 0 10 v) }) s)
  | 15 => some (setParams (fun p => { p with rest := p.rest.set 2 (clamp 0 10 v) }) s)
  | 16 => some (setParams (fun p => { p with rest := p.rest.set 3 (clamp 0 10 v) }) s)
  | 17 => some (setParams ({ · with testPeriod := clamp 0 168 v }) s)
  | 18 => some (setParams ({ · with warmUp := clamp 5 60 v }) s)
  | 19 => if v ∈ lineRates then some (takeRate .p (setParams ({ · with rateP := v }) s)) else none
  | 20 => if v ∈ lineRates then some (takeRate .s (setParams ({ · with rateS := v }) s)) else none
  | 21 => some (setParams ({ · with framesPerTurn := clamp 1 8 v }) s)
  | 22 => some (setParams ({ · with queueMark := clamp 1 32 v }) s)
  | 23 => if v ≤ 1 then some (setParams ({ · with defaultForward := v == 1 }) s) else none
  | 24 => some (setParams ({ · with burstLimit := clamp 1 4 v }) s)
  | 25 => some (setParams ({ · with logMark := clamp 1 256 v }) s)
  | _ => none

/-- R164: the route set and mode of a line; the onsets of the event so far belong to the lines as they were routed. -/
def applyCommon (l : Fin 2) (route mode : Nat) (s : State) : Option State :=
  if 512 ≤ route ∨ 1 < mode then none
  else
    let s := takeOnsets s
    some { s with lines := s.lines.upd l (loadLine s (BitVec.ofNat 9 route) (mode == 1)) }

/-- R170: an address. -/
def applyAddress (i v : Nat) (s : State) : Option State :=
  if 126 < v then none
  else
    let a := BitVec.ofNat 8 v
    match i with
    | 0 => some { s with addrs := { s.addrs with own := a } }
    | 1 => some { s with addrs := { s.addrs with mainPanel := a } }
    | 2 => some { s with addrs := { s.addrs with brigade := s.addrs.brigade.set 0 a } }
    | 3 => some { s with addrs := { s.addrs with brigade := s.addrs.brigade.set 1 a } }
    | _ => none

/-- R170: an entry applied at an index of a table by its owner, or refused. -/
def applyEntry (t : TableId) (i : Nat) (e : Entry) (s : State) : Option State :=
  match t, e with
  | .zoneMap, .zoneMap e => (index? 128 i).bind fun i => applyZoneMap i e s
  | .zoneTable, .zone k f st v g kn q => (index? 256 i).bind fun z => applyZone z k f st v g kn q s
  | .floorTable, .floor o m r => (index? 64 i).bind fun f => applyFloor f o m r s
  | .stairTable, .stair c w m => (index? 4 i).bind fun st => applyStair st c w m s
  | .bankTable, .bank a pf pz af az sh t =>
    if i = 0 then none else (index? 2 (i - 1)).bind fun b => applyBank b a pf pz af az sh t s
  | .carTable, .car e => (index? 8 i).bind fun i => applyCar i e s
  | .doorPointTable, .doorPoint e => (index? 128 i).bind fun i => applyDoorPoint i e s
  | .stationTable, .station e => (index? 48 i).bind fun i => applyStation i e s
  | .messageRows, .messages al ev a b c d re => (index? 64 i).bind fun f => applyMessages f al ev a b c d re s
  | .tenantTable, .tenant e => (index? 16 i).bind fun i => applyTenant i e s
  | .filterList, .filter en fl te a b ac k => (index? 32 i).bind fun i => applyFilter i en fl te a b ac k s
  | .parameters, .param v => (applyParam i v s).map startTest
  | .parameters, .common r m =>
    if i = 26 then (applyCommon 0 r m s).map startTest
    else if i = 27 then (applyCommon 1 r m s).map startTest else none
  | .addresses, .address v => applyAddress i v s
  | _, _ => none

/-! ### The entry that a record's configuration makes (R172) -/

/-- R135: the codes of a test. -/
def testCodes : FilterTest → Nat × Nat × Nat
  | .range a b => (0, a.toNat, b.toNat)
  | .pair a b => (1, a.toNat, b.toNat)
  | .mask a b => (2, a.toNat, b.toNat)

/-- R135: the codes of an action. -/
def actionCodes : FilterAction → Nat × Nat
  | .forward => (0, 0)
  | .forwardAndLog => (1, 0)
  | .gatedForward => (2, 0)
  | .drop => (3, 0)
  | .capture k => (4, k.val)
  | .captureAndForward k => (5, k.val)

/-- Table 10-2: the value of a parameter of one number. -/
def paramValue (s : State) (i : Nat) : Nat :=
  let p := s.params
  match i with
  | 0 => p.nf
  | 1 => p.catchAll.val
  | 2 => p.phaseInterval
  | 3 => p.floorsPerStep
  | 4 => p.discharge.val
  | 5 => p.relockTime
  | 6 => p.feedbackTime
  | 7 => (s.ann.racks.get 0).address.toNat
  | 8 => (s.ann.racks.get 1).address.toNat
  | 9 => (s.ann.racks.get 2).address.toNat
  | 10 => (s.ann.racks.get 3).address.toNat
  | 11 => p.allClear.val
  | 12 => p.testMessage.val
  | 13 => p.rest.get 0
  | 14 => p.rest.get 1
  | 15 => p.rest.get 2
  | 16 => p.rest.get 3
  | 17 => p.testPeriod
  | 18 => p.warmUp
  | 19 => p.rateP
  | 20 => p.rateS
  | 21 => p.framesPerTurn
  | 22 => p.queueMark
  | 23 => flag p.defaultForward
  | 24 => p.burstLimit
  | _ => p.logMark

/-- The route set and mode of a line as an entry. -/
def commonEntry (l : CommonLine) : Entry := .common l.route.toNat (flag l.latched)

/-- R135: an element of the filter list as an entry. -/
def filterEntry (e : FilterElem) : Entry :=
  .filter (flag e.enabled) e.field.ctorIdx (testCodes e.test).1 (testCodes e.test).2.1 (testCodes e.test).2.2
    (actionCodes e.action).1 (actionCodes e.action).2

/-- R172: the configuration fields of a record as an entry of its table. -/
def configEntry (s : State) (t : TableId) (i : Nat) : Entry :=
  match t with
  | .zoneMap => (index? 128 i).elim .bad fun i => .zoneMap ((s.zones.map.get i).map fun e =>
      (e.panel.val, e.low.val, e.high.val, e.zone.val))
  | .zoneTable => (index? 256 i).elim .bad fun i =>
      let c := (s.zones.table.get i).cfg
      .zone c.kind.ctorIdx (orNone c.floor) (orNone c.stair) c.verification.ctorIdx (orNone c.group) c.knock c.quiet
  | .floorTable => (index? 64 i).elim .bad fun i =>
      let f := s.seq.floors.get i
      .floor f.occupancy f.mask.toNat f.rack.val
  | .stairTable => (index? 4 i).elim .bad fun i =>
      let x := s.seq.stairs.get i
      .stair x.capacity x.window x.mode.ctorIdx
  | .bankTable => (index? 2 (i - 1)).elim .bad fun i =>
      let b := s.lifts.banks.get i
      .bank b.iface.toNat b.primary.val (orNone b.primaryZone) b.alternate.val (orNone b.alternateZone) (orNone b.shaft) b.timeout
  | .carTable => (index? 8 i).elim .bad fun i => .car ((s.lifts.cars.get i).map fun c => (c.bank.val + 1, c.index.val, c.served))
  | .doorPointTable => (index? 128 i).elim .bad fun i => .doorPoint ((s.doors.points.get i).map fun p =>
      (p.controller.toNat, p.output.val, p.floor.val, p.stair.val))
  | .stationTable => (index? 48 i).elim .bad fun i => .station ((s.sline.stations.get i).map fun x => (x.address.toNat, x.kind.ctorIdx))
  | .messageRows => (index? 64 i).elim .bad fun i =>
      let r := s.ann.rows.get i
      .messages r.alert.val r.evacuate.val (r.useStair.get 0).val (r.useStair.get 1).val (r.useStair.get 2).val
        (r.useStair.get 3).val r.refuge.val
  | .tenantTable => (index? 16 i).elim .bad fun i => .tenant ((s.ann.tenants.get i).map fun t => (t.console.toNat, t.allowed))
  | .filterList => (index? 32 i).elim .bad fun i => filterEntry (s.cls.filter.get i)
  | .parameters =>
    if i < 26 then .param (paramValue s i) else if i = 26 then commonEntry (s.lines.get 0) else commonEntry (s.lines.get 1)
  | .addresses =>
    .address (match i with
      | 0 => s.addrs.own
      | 1 => s.addrs.mainPanel
      | 2 => s.addrs.brigade.get 0
      | _ => s.addrs.brigade.get 1).toNat

end Sys2Proof.Machine
end

