-- ==== Sys2Proof/Machine/Records.lean ====
section
/-! DEFINITION. What the read commands return: READ TABLE (R172, R21), READ RECORD (R173 and the rules it names), READ LOG
(R162) and READ CAPTURE (R141).  A read answers the data of each MANAGE REPLY frame it takes. -/

namespace Sys2Proof.Machine

/-- R168: the bytes of data one MANAGE REPLY frame can carry, 3 to 63 of its payload. -/
def dataRoom : Nat := 61

/-- R122: data that runs on in byte order, cut into frames. -/
def chunks : Nat → List Byte → List (List Byte)
  | 0, _ => []
  | n + 1, bs => if bs.length ≤ dataRoom then [bs] else bs.take dataRoom :: chunks n (bs.drop dataRoom)

/-- R122: data cut into as many frames as it needs. -/
def runOn (bs : List Byte) : List (List Byte) := chunks (bs.length + 1) bs

/-- R122: whole records gathered into groups that fit a room of bytes each. -/
def gather (room : Nat) : List (List Byte) → List (List Byte) → List (List (List Byte))
  | acc, [] => [acc]
  | acc, r :: rs =>
    if acc ≠ [] ∧ room < (acc ++ [r]).flatten.length then acc :: gather room [r] rs else gather room (acc ++ [r]) rs

/-- R122, R172: records carried in frames, each with what stands before the list, the number carried and the most whole
records it can hold. -/
def recordFrames (before : List Byte) (rs : List (List Byte)) : List (List Byte) :=
  (gather (dataRoom - before.length - 1) [] rs).map fun g => before ++ b1 g.length ++ g.flatten

/-! ### READ TABLE (R21, R117, R172) -/

/-- R172: the tables READ TABLE names, the isolation list and the rack table after the thirteen loadable ones (log entry
15). -/
inductive ReadTable
  | table (t : TableId)
  | isolation
  | racks
deriving DecidableEq, Repr

def readTables : List ReadTable := tableIds.map .table ++ [.isolation, .racks]

/-- R172: the first and last index of a table that can be read.  The isolation list's are those of its sixty-four places
(R16), whatever number of its entries is ACTIVE; no rule states them (DESIGN CHOICE, log entry 62). -/
def readRange : ReadTable → Nat × Nat
  | .table t => tableRange t
  | .isolation => (0, 63)
  | .racks => (0, 3)

/-- R21: the ACTIVE entries in list order. -/
def activeEntries (s : State) : List IsoEntry := s.zones.isolation.filter (·.active)

/-- R117: the configuration fields of a rack. -/
def rackConfig (s : State) (i : Nat) : List Byte :=
  (index? 4 i).elim [] fun r => [(s.ann.racks.get r).address] ++ b1 (s.ann.racks.get r).code

/-- R172: the configuration fields of a record: the entry its owner would load, and for a floor its message row too, which
R28 lists last among them. -/
def configBytes (s : State) (t : TableId) (i : Nat) : List Byte :=
  entryBytes i (configEntry s t i) ++ match t with
    | .floorTable => entryBytes i (configEntry s .messageRows i)
    | _ => []

/-- R172: the records of a table from an index, up to a count and no further than the table's last. -/
def tableRecords (s : State) (t : ReadTable) (start count : Nat) : List (List Byte) :=
  let n := min count ((readRange t).2 + 1 - start)
  match t with
  | .table t => (List.range' start n).map (configBytes s t)
  | .racks => (List.range' start n).map (rackConfig s)
  | .isolation => (((activeEntries s).drop start).take count).map fun e => scopeBytes e.scope

/-- R21: what stands before the records of the isolation list: the numbers of ACTIVE and of PENDING entries. -/
def tableHead (s : State) : ReadTable → List Byte
  | .isolation => b1 (activeEntries s).length ++ b1 (s.zones.isolation.length - (activeEntries s).length)
  | _ => []

/-- R172: the frames of a READ TABLE. -/
def tableFrames (s : State) (t : ReadTable) (start count : Nat) : List (List Byte) :=
  recordFrames (tableHead s t) (tableRecords s t start count)

/-! ### READ RECORD (R173) -/

/-- R173: the targets in the order listed. -/
inductive Target
  | zone
  | floor
  | stair
  | regime
  | bank
  | car
  | doorPoint
  | job
  | rack
  | messages
  | tenant
  | reportQueue
  | forwardQueue
  | filter
  | station
  | servicesLine
  | commonLines
deriving DecidableEq, Repr

def targets : List Target :=
  [.zone, .floor, .stair, .regime, .bank, .car, .doorPoint, .job, .rack, .messages, .tenant, .reportQueue, .forwardQueue,
   .filter, .station, .servicesLine, .commonLines]

/-- R173: the first and last index of a target with records. -/
def targetRange : Target → Option (Nat × Nat)
  | .zone => some (0, 255)
  | .floor => some (0, 63)
  | .stair => some (0, 3)
  | .bank => some (1, 2)
  | .car => some (0, 7)
  | .doorPoint => some (0, 127)
  | .job => some (0, 15)
  | .rack => some (0, 3)
  | .messages => some (0, 63)
  | .tenant => some (0, 15)
  | .filter => some (0, 31)
  | .station => some (0, 47)
  | .regime | .reportQueue | .forwardQueue | .servicesLine | .commonLines => none

/-- The remainder of a timer in whole seconds, stopped coded after the greatest remainder (log entry 17). -/
def remainder (full : Nat) (t : Timer) : List Byte := be 2 (t.elim (full + 1) seconds)

/-- R4. -/
def zoneRecord (s : State) (z : Fin 256) : List Byte :=
  let x := s.zones.table.get z
  entryBytes z.val (configEntry s .zoneTable z.val) ++ b1 x.state.ctorIdx ++ deviceBytes x.first ++
    be 4 x.windowStart.toNat ++ b1 x.count ++ b1 (flag x.fault) ++ b1 (flag x.isolated)

/-- R28: the message row stands where R28 lists it. -/
def floorRecord (s : State) (f : Fin 64) : List Byte :=
  let x := s.seq.floors.get f
  configBytes s .floorTable f.val ++ b1 x.state.ctorIdx ++ b1 (x.cause.elim 3 PromotionCause.ctorIdx) ++ be 4 x.promotedAt.toNat ++ b1 x.urgency ++
    b1 (flag x.noStair)

/-- R32: a load list entry; its expiry takes the four bytes of the plan clock (log entry 17). -/
def loadBytes (e : Load) : List Byte := b1 e.floor.val ++ be 2 e.share ++ be 4 e.expiry

/-- R31, R173: a stair with up to 6 load list entries from a position. -/
def stairRecord (s : State) (st : Fin 4) (position : Nat) : List Byte :=
  let x := s.seq.stairs.get st
  let shown := (x.loads.drop position).take 6
  entryBytes st.val (configEntry s .stairTable st.val) ++ be 2 x.budget ++ be 2 x.committed ++ b1 (flag x.inService) ++
    b1 x.loads.length ++ b1 shown.length ++ shown.flatMap loadBytes

/-- R173: the regime and the plan. -/
def regimeRecord (s : State) : List Byte :=
  b1 s.regime.state.ctorIdx ++ b1 (flag s.regime.allClearDone) ++ b1 (flag s.regime.relockDone) ++ b1 s.seq.state.ctorIdx ++
    be 2 (seconds s.seq.phase.left) ++ be 4 s.seq.planClock

/-- R55, R73. -/
def bankRecord (s : State) (b : Fin 2) : List Byte :=
  entryBytes (b.val + 1) (configEntry s .bankTable (b.val + 1)) ++ b1 (s.lifts.banks.get b).recallFloor.val ++
    b1 (s.lifts.banks.get b).choice.ctorIdx

/-- R56, R73: a car; the before loss is present in LOST only.  Of the two ways R73 and R122 have for a field that may be
absent, the target and the before loss are present in some states and omitted in the others, while the reported fields of
every car are coded absent (DESIGN CHOICE, log entry 49). -/
def carRecord (s : State) (i : Fin 8) : List Byte :=
  entryBytes i.val (configEntry s .carTable i.val) ++ (s.lifts.cars.get i).elim [] fun c =>
    reportedBytes c.reported ++ b1 c.state.ctorIdx ++ floorIf c.target ++ be 4 c.start.toNat ++ b1 (flag c.timer.isSome) ++
      b1 (flag c.compromised) ++ c.before.elim [] fun b => b1 b.state.ctorIdx ++ floorIf b.target

/-- R74, R90: a door point, and the relock timer's remainder, 0 to 1800 s, or stopped. -/
def doorPointRecord (s : State) (i : Fin 128) : List Byte :=
  entryBytes i.val (configEntry s .doorPointTable i.val) ++ ((s.doors.points.get i).elim [] fun p =>
    b1 p.commanded.ctorIdx ++ feedbackBytes p.feedback ++ b1 p.supervision.ctorIdx ++ b1 (flag p.mismatch.isSome) ++
      b1 (flag p.pending) ++ b1 (flag p.test.isSome)) ++ remainder 1800 s.doors.relock

/-- R99: repeats remaining, CONTINUOUS after the greatest number. -/
def repeatsCode : Repeats → Nat
  | .times n => n
  | .continuous => 16

/-- R99: a job; the hold deadline is carried for class 5 alone.  A last play end of never is coded like an absent
timestamp, as the code after the greatest; and so is the hold deadline of a class 5 job whose play has begun, which R99 gives
as a timestamp alone and R114 says no longer applies: both take five bytes (DESIGN CHOICE, log entry 50). -/
def jobBytes (x : Job) : List Byte :=
  b1 x.cls.ctorIdx ++ sourceBytes x.source ++ floorSetBytes x.target ++ b1 (repeatsCode x.repeats) ++ b1 x.state.ctorIdx ++
    x.channel.elim [] (fun k => b1 k.val) ++ stampOrAbsent x.lastEnd ++ b1 (flag x.rest.isSome) ++
    if x.cls = .tenant then stampOrAbsent x.hold else []

/-- R117: a job slot, 0 free or 1 and its job. -/
def jobRecord (s : State) (j : Fin 16) : List Byte := (s.ann.jobs.get j).elim (b1 0) fun x => b1 1 ++ jobBytes x

/-- R93, R117: a rack, its countdown as remaining seconds and whether it runs. -/
def rackRecord (s : State) (r : Fin 4) : List Byte :=
  let x := s.ann.racks.get r
  rackConfig s r.val ++ b1 x.power.ctorIdx ++ b1 x.commanded.ctorIdx ++ be 2 (seconds x.countdown) ++
    b1 (flag (countdownRuns s r)) ++ be 2 ((x.ended.get 0).elim 256 BitVec.toNat) ++
    be 2 ((x.ended.get 1).elim 256 BitVec.toNat) ++ b1 (x.reported.elim 3 ReportedPower.ctorIdx)

/-- R112, R117. -/
def tenantRecord (s : State) (e : Fin 16) : List Byte :=
  entryBytes e.val (configEntry s .tenantTable e.val) ++ (s.ann.tenants.get e).elim [] fun t => b1 t.status.ctorIdx

/-- The stamp of greatest age, the oldest of some (R160). -/
def oldest (now : Stamp) (ts : List Stamp) : Option Stamp :=
  ts.foldl (fun best t => match best with
    | some u => if elapsed now u < elapsed now t then some t else some u
    | none => some t) none

/-- R124: the number of entries in each class 1 to 5, and the queue timestamp of the oldest, coded absent when the queue is
empty, for which R124 names no value (DESIGN CHOICE, log entry 52). -/
def queueRecord (s : State) : List Byte :=
  [1, 2, 3, 4, 5].flatMap (fun c => b1 (s.port.queue.filter fun e => e.cls == c).length) ++
    stampOrAbsent (oldest (now s) (s.port.queue.map (·.stamp)))

/-- R142: the number of QUEUED entries in each class 0 to 7, whether one is ON LINE, and the oldest arrival, coded
absent when the queue is empty, for which R142 names no value (DESIGN CHOICE, log entry 52). -/
def forwardRecord (s : State) : List Byte :=
  (List.range 8).flatMap (fun c => b1 (s.cls.queue.filter fun e => !e.onLine && e.frame.cls.toNat == c).length) ++
    b1 (flag (s.cls.queue.any (·.onLine))) ++ stampOrAbsent (oldest (now s) (s.cls.queue.map (·.arrival)))

/-- R147, R159: a station record; the states are ONLINE, LOST, UNCONFIGURED. -/
def stationRecord (s : State) (i : Fin 48) : List Byte :=
  entryBytes i.val (configEntry s .stationTable i.val) ++ match s.sline.stations.get i with
    | none => b1 2
    | some st => b1 (flag st.lost) ++ b1 st.noAnswer ++ stampOrAbsent st.lastReply

/-- R159: the services line; a transaction in progress is a forward 0 or a poll 1, with its address. -/
def lineRecord (s : State) : List Byte :=
  b1 s.sline.mode.ctorIdx ++ remainder 600 s.sline.quietTimer ++ b1 s.sline.burst ++ b1 s.params.burstLimit ++
    b1 (orNone s.sline.pointer) ++ b1 s.sline.early.length ++ s.sline.early.flatMap (fun i => b1 i.val) ++
    match s.sline.txn with
    | none => b1 0
    | some t => b1 1 ++ b1 (match t.kind with | .forward => 0 | .poll _ | .withdrawn => 1) ++ [t.dest]

/-- R167: the conditions that hold, as a set. -/
def holdingSet (s : State) : Nat :=
  (conditions.map fun c => if holds s c then 2 ^ c.ctorIdx else 0).sum

/-- R167: the common lines, the nine conditions and the watermark; an output is 1 active, 0 inactive (log entry 7). -/
def commonRecord (s : State) : List Byte :=
  s.lines.rows.flatMap (fun l => be 2 l.route.toNat ++ b1 (flag l.latched) ++ b1 (flag l.latch) ++ b1 (flag l.output)) ++
    be 2 (holdingSet s) ++ be 2 s.log.sinceRead ++ be 2 s.params.logMark

/-- R173: the content of the record of a target at an index in its range. -/
def recordBytes (s : State) (t : Target) (i position : Nat) : List Byte :=
  match t with
  | .zone => (index? 256 i).elim [] (zoneRecord s)
  | .floor => (index? 64 i).elim [] (floorRecord s)
  | .stair => (index? 4 i).elim [] fun st => stairRecord s st position
  | .regime => regimeRecord s
  | .bank => (index? 2 (i - 1)).elim [] (bankRecord s)
  | .car => (index? 8 i).elim [] (carRecord s)
  | .doorPoint => (index? 128 i).elim [] (doorPointRecord s)
  | .job => (index? 16 i).elim [] (jobRecord s)
  | .rack => (index? 4 i).elim [] (rackRecord s)
  | .messages => entryBytes i (configEntry s .messageRows i)
  | .tenant => (index? 16 i).elim [] (tenantRecord s)
  | .reportQueue => queueRecord s
  | .forwardQueue => forwardRecord s
  | .filter => entryBytes i (configEntry s .filterList i)
  | .station => (index? 48 i).elim [] (stationRecord s)
  | .servicesLine => lineRecord s
  | .commonLines => commonRecord s

/-! ### READ LOG (R162) -/

/-- R162: the records a READ LOG returns. -/
def logRecords (l : EventLog) (start : BitVec 16) (count : Nat) : List LogRecord :=
  match l.records with
  | [] => []
  | r :: _ =>
    if (start - r.seq).toNat < l.records.length then (l.records.drop (start - r.seq).toNat).take count
    else if start = l.nextSeq then []
    else l.records.take count

/-- R162: the oldest and newest sequence numbers held, absent coded 65,536. -/
def seqOrAbsent (o : Option LogRecord) : List Byte := be 3 (o.elim 65536 fun r => r.seq.toNat)

/-- R162: up to four records a frame. -/
def byFours (rs : List LogRecord) : List (List LogRecord) := if rs.length ≤ 4 then [rs] else [rs.take 4, rs.drop 4]

/-- R162: the frames of a READ LOG: the oldest and newest numbers, the number of records returned, and the records.  Each
frame of a reply of two carries the number the reply returns as a whole, before the number it carries itself (DESIGN CHOICE,
log entry 30). -/
def logFrames (l : EventLog) (start : BitVec 16) (count : Nat) : List (List Byte) :=
  let rs := logRecords l start count
  (byFours rs).map fun g =>
    seqOrAbsent l.records.head? ++ seqOrAbsent l.records.getLast? ++ b1 rs.length ++ b1 g.length ++ g.flatMap logRecordBytes

/-! ### READ CAPTURE (R141) -/

/-- R141: a slot, 0 empty or 1 and the frame, its timestamp and its element. -/
def captureBytes : Option Capture → List Byte
  | none => b1 0
  | some c => b1 1 ++ c.bytes ++ be 4 c.stamp.toNat ++ b1 c.element.val

end Sys2Proof.Machine
end

