-- ==== Sys2Proof/Machine/Manage.lean ====
section
/-! DEFINITION. The Management Unit: chapter 10, R168 to R175. -/

namespace Sys2Proof.Machine

/-! ### Replies (R168) -/

/-- R168: a MANAGE REPLY of one frame queued at class 3 to the source of the frame it answers. -/
def reply (dst sub : Byte) (r : Reply) (index : Nat) (data : List Byte) (s : State) : State :=
  queueReport dst 3 (.manageReply sub r index data) s

/-- R168: DONE with its data, one frame after another. -/
def replyData (dst sub : Byte) (frames : List (List Byte)) (s : State) : State :=
  frames.foldl (fun s data => reply dst sub .done 0 data s) s

/-- R168 steps 2, 3 and 5: what a MANAGE frame to the bridge meets before its subcode acts; `enough` says whether the
payload carries the parameters. -/
def checked (src sub : Byte) (key : BitVec 32) (enough : Bool) (act : State → State) (s : State) : State :=
  if writing s ∨ s.mgmt.wait.isSome then reply src sub .busy 0 [] s
  else if key ≠ s.mgmt.key then reply src sub .refusedKey 0 [] s
  else if !enough then reply src sub .badCount 0 [] s
  else act s

/-- R132, R168: a MANAGE frame with a key and a subcode: to the bridge, or to the filter list. -/
def manage (h : Hdr) (key : BitVec 32) (sub : Byte) (params : List Byte) (enough : Bool) (act : State → State)
    (s : State) : State :=
  if toBridge s h.dst then checked h.src sub key enough act s
  else filterFrame (frameWith h kindManage (managePayload key sub params)) s

/-- A parameter of one byte at a place of the payload. -/
def param (params : List Byte) (i : Nat) : Nat := (params[i]?).elim 0 BitVec.toNat

/-! ### The store (R171) -/

/-- R171: the place of a table in the order the store is applied. -/
def storeRank : TableId → Nat
  | .stationTable => 0
  | .stairTable => 1
  | .bankTable => 2
  | .addresses => 3
  | .parameters => 4
  | .zoneMap => 6
  | .zoneTable => 7
  | .floorTable => 9
  | .carTable => 10
  | .doorPointTable => 11
  | .messageRows => 12
  | .tenantTable => 13
  | .filterList => 14

/-- R171: the place of an item in the order the store is applied, the countdown codes fifth, the isolation list eighth
and the key last; within a table by index, within the list by place. -/
def storePlace : StoreItem → Nat
  | .entry t i _ => storeRank t * 1024 + i
  | .code r _ => 5 * 1024 + r.val
  | .isolation i _ => 8 * 1024 + i.val
  | .key _ => 15 * 1024

/-- R171: an item written whole: it takes the place of the item it replaces. -/
def writeItem (x : StoreItem) : List StoreItem → List StoreItem
  | [] => [x]
  | y :: rest =>
    if storePlace x < storePlace y then x :: y :: rest
    else if storePlace x = storePlace y then x :: rest
    else y :: writeItem x rest

/-- R171: items written one after another. -/
def writeItems (xs : List StoreItem) (store : List StoreItem) : List StoreItem := xs.foldl (fun st x => writeItem x st) store

/-- R171: a store write ends: its entries are in the store and the reply of its cause is queued. -/
def endWrite (s : State) : State :=
  match s.mgmt.writes with
  | [] => s
  | w :: rest =>
    let s := { s with mgmt := { s.mgmt with store := writeItems w.items s.mgmt.store, writes := rest } }
    match w.reply with
    | some (dst, sub, r, index) => reply dst sub r index [] s
    | none => s

/-! ### LOAD TABLE (R169, R170) -/

/-- R170: entries applied one after another from an index: the items applied, in order, the index of the entry refused,
and the state.  Each entry applied is a change of its own for the stations' polls (R151). -/
def applyRun (t : TableId) : Nat → List Entry → State → List StoreItem × Option Nat × State
  | _, [], s => ([], none, s)
  | i, e :: es, s =>
    match applyEntry t i e s with
    | none => ([], some i, s)
    | some s' =>
      let r := applyRun t (i + 1) es (reportChanges s s')
      (.entry t i e :: r.1, r.2)

/-- R170: the entries of an accepted load: TABLE LOADED and the store write, or BAD ENTRY at once. -/
def runLoad (src : Byte) (t : TableId) (start : Nat) (es : List Entry) (s : State) : State :=
  let r := applyRun t start es s
  let answer : Reply × Nat := match r.2.1 with
    | some i => (.badEntry, i)
    | none => (.done, 0)
  if r.1 = [] then reply src subLoadTable answer.1 answer.2 [] r.2.2
  else beginWrite { items := r.1, reply := some (src, subLoadTable, answer.1, answer.2) }
    (appendLog .tableLoaded (.table t) (.loaded start r.1.length) r.2.2)

/-- R169, R170: LOAD TABLE. -/
def loadTable (src : Byte) (params : List Byte) (s : State) : State :=
  let start := param params 1
  let count := param params 2
  match ofCode tableIds (param params 0) with
  | none => reply src subLoadTable .badTable 0 [] s
  | some t =>
    if count = 0 ∨ 8 < count then reply src subLoadTable .badCount 0 [] s
    else match parseEntries t start count (params.drop 3) with
      | none => reply src subLoadTable .badCount 0 [] s
      | some es =>
        if s.regime.state = .quiescent then runLoad src t start es s
        else reply src subLoadTable .refusedRegime 0 [] s

/-! ### The reads (R141, R162, R172, R173) -/

/-- R172: READ TABLE. -/
def readTable (src : Byte) (params : List Byte) (s : State) : State :=
  let start := param params 1
  let count := param params 2
  match ofCode readTables (param params 0) with
  | none => reply src subReadTable .badTable 0 [] s
  | some t =>
    if count = 0 ∨ 8 < count then reply src subReadTable .badCount 0 [] s
    else if start < (readRange t).1 ∨ (readRange t).2 < start then reply src subReadTable .badEntry start [] s
    else replyData src subReadTable (tableFrames s t start count) s

/-- R168 step 5, R173: whether a payload carries the parameters of a READ RECORD: its target, an index where the target
has records, and a list position for a stair. -/
def recordParams (params : List Byte) : Bool :=
  match params with
  | [] => false
  | t :: rest =>
    match ofCode targets t.toNat with
    | some .stair => decide (2 ≤ rest.length)
    | some t => (targetRange t).isNone || decide (1 ≤ rest.length)
    | none => true

/-- R173: READ RECORD. -/
def readRecord (src : Byte) (params : List Byte) (s : State) : State :=
  let i := param params 1
  match ofCode targets (param params 0) with
  | none => reply src subReadRecord .badTable 0 [] s
  | some t =>
    if (targetRange t).any fun r => decide (i < r.1) || decide (r.2 < i) then reply src subReadRecord .badEntry i [] s
    else replyData src subReadRecord (runOn (recordBytes s t i (param params 2))) s

/-- R162, R163: READ LOG; a read answered DONE sets the watermark count to 0. -/
def readLog (src : Byte) (params : List Byte) (s : State) : State :=
  let start := BitVec.ofNat 16 (ofBE (params.take 2))
  let count := param params 2
  if count = 0 ∨ 8 < count then reply src subReadLog .badCount 0 [] s
  else
    let frames := logFrames s.log start count
    replyData src subReadLog frames { s with log := { s.log with sinceRead := 0 } }

/-- R141: READ CAPTURE empties the slot it reads.  The index of a BAD ENTRY is the slot named, for which R141 gives none
(DESIGN CHOICE, log entry 58). -/
def readCapture (src : Byte) (params : List Byte) (s : State) : State :=
  match index? 4 (param params 0) with
  | none => reply src subReadCapture .badEntry (param params 0) [] s
  | some k =>
    replyData src subReadCapture (runOn (captureBytes (s.cls.slots.get k)))
      { s with cls := { s.cls with slots := s.cls.slots.set k none } }

/-! ### ISOLATE and DE-ISOLATE (R18, R20) -/

/-- R16: the list goes to the store and the reply is queued at the end of the write. -/
def storeIsolation (src sub : Byte) (s : State) : State :=
  beginWrite { items := isolationItems s, reply := some (src, sub, .done, 0) } s

/-- R18: ISOLATE. -/
def isolateScope (src : Byte) (params : List Byte) (s : State) : State :=
  match (parseScope params).bind checkScope with
  | none => reply src subIsolate .badEntry 0 [] s
  | some c =>
    if holdsScope s c then reply src subIsolate .done 0 [] s
    else if 64 ≤ s.zones.isolation.length then reply src subIsolate .tableFull 0 [] s
    else storeIsolation src subIsolate (appendIsolation c s)

/-- R20: DE-ISOLATE; no entry has a scope out of range. -/
def deIsolateScope (src : Byte) (params : List Byte) (s : State) : State :=
  match (parseScope params).bind checkScope with
  | none => reply src subDeIsolate .done 0 [] s
  | some c =>
    if holdsScope s c then storeIsolation src subDeIsolate (removeIsolation c s)
    else reply src subDeIsolate .done 0 [] s

/-! ### Racks, doors, lines, key, restart (R88, R97, R166, R174, R175) -/

/-- R97: RACK STANDBY NOW; the index of a BAD ENTRY is the rack named (DESIGN CHOICE, log entry 58). -/
def rackStandby (src : Byte) (params : List Byte) (s : State) : State :=
  match index? 4 (param params 0) with
  | none => reply src subRackStandbyNow .badEntry (param params 0) [] s
  | some r =>
    let a := (s.ann.racks.get r).address
    if a = 0 then reply src subRackStandbyNow .badEntry (param params 0) [] s
    else if s.regime.state ≠ .quiescent then reply src subRackStandbyNow .refusedRegime 0 [] s
    else if stationLost s a ∨ rackHeld s r then reply src subRackStandbyNow .busy 0 [] s
    else reply src subRackStandbyNow .done 0 [] (standbyNow r s)

/-- R97: a rack with a new countdown code. -/
def setCode (r : Fin 4) (code : Nat) (s : State) : State := setRack r (fullCountdown { s.ann.racks.get r with code }) s

/-- R97: RACK COUNTDOWN; the index of a BAD ENTRY is the rack named (DESIGN CHOICE, log entry 58). -/
def rackCode (src : Byte) (params : List Byte) (s : State) : State :=
  match index? 4 (param params 0) with
  | none => reply src subRackCountdown .badEntry (param params 0) [] s
  | some r =>
    let code := clamp 0 100 (param params 1)
    beginWrite { items := [.code r code], reply := some (src, subRackCountdown, .done, 0) } (setCode r code s)

/-- R88: TEST DOOR; the index of a BAD ENTRY is the record named (DESIGN CHOICE, log entry 58). -/
def doorTest (src : Byte) (params : List Byte) (s : State) : State :=
  if s.regime.state ≠ .quiescent then reply src subTestDoor .refusedRegime 0 [] s
  else match index? 128 (param params 0) with
    | none => reply src subTestDoor .badEntry (param params 0) [] s
    | some i =>
      match s.doors.points.get i with
      | none => reply src subTestDoor .badEntry (param params 0) [] s
      | some p => reply src subTestDoor .done 0 [] (testRelease i p (clamp 5 120 (param params 1)) s)

/-- R166: ACKNOWLEDGE LINES. -/
def acknowledgeAll (src : Byte) (s : State) : State := reply src subAcknowledgeLines .done 0 [] (acknowledge s)

/-- R174: SET KEY. -/
def changeKey (src : Byte) (params : List Byte) (s : State) : State :=
  let k := BitVec.ofNat 32 (ofBE (params.take 4))
  beginWrite { items := [.key k], reply := some (src, subSetKey, .done, 0) } { s with mgmt := { s.mgmt with key := k } }

/-- R175: RESTART; DONE at once and the wait of 2 s. -/
def askRestart (src : Byte) (s : State) : State :=
  if s.regime.state = .quiescent then
    reply src subRestart .done 0 [] { s with mgmt := { s.mgmt with wait := some (ticks 2) } }
  else reply src subRestart .refusedRegime 0 [] s

end Sys2Proof.Machine
end

