-- ==== Sys2Proof/Machine/Power.lean ====
section
/-! DEFINITION. Power-on, RESTART and the failure of the supply: R171, R175, R176. -/

namespace Sys2Proof.Machine

/-- R16: an entry of the isolation list as the store gives it, ACTIVE at the list's end, a whole-zone entry setting its
zone's flag; a scope the list already holds is not held twice (log entry 39). -/
def restoreScope (c : Scope) (s : State) : State :=
  if holdsScope s c then s
  else
    let e : IsoEntry := { scope := c, active := true }
    markIsolated e { s with zones := { s.zones with isolation := s.zones.isolation ++ [e] } }

/-- R171: one item of the store applied; an entry its owner would refuse leaves its record as a blank store gives it. -/
def applyItem (s : State) (x : StoreItem) : State :=
  match x with
  | .entry t i e => (applyEntry t i e s).getD s
  | .code r code => setCode r code s
  | .isolation _ scope => scope.elim s (restoreScope · s)
  | .key k => { s with mgmt := { s.mgmt with key := k } }

/-- R176 steps 2 to 4: every block at its values after power-on, the tables read from the store, the event log as given
and nothing queued or in progress: a P-line turn in progress is dropped with any frame of it on the line, at a RESTART too
(DESIGN CHOICE, log entry 63).  The supply is on; the store, the count of failures and the commands that wait are kept. -/
def boot (log : EventLog) (s : State) : State :=
  let base := { State.blank with
    log, failures := s.failures, pending := s.pending, mgmt := { State.blank.mgmt with store := s.mgmt.store } }
  let t := startTest (s.mgmt.store.foldl applyItem base)
  { t with
    powered := true
    regime := base.regime
    ann := { t.ann with
      jobs := base.ann.jobs, channels := base.ann.channels, owed := [], liveLimit := none }
    port := { base.port with line := { rx := .hunt, rate := t.params.rateP } }
    cls := { base.cls with filter := t.cls.filter }
    sline := { base.sline with stations := t.sline.stations, line := { rx := .hunt, rate := t.params.rateS } }
    log
    notes := base.notes
    mgmt := { key := t.mgmt.key, store := s.mgmt.store, writes := [], wait := none }
    failures := s.failures
    pending := s.pending }

/-- R161, R176: the bridge in service with its RESTART record; the common lines follow from there (R164, log entry 11). -/
def comeUp (log : EventLog) (d : RestartDetail) (s : State) : State :=
  let t := boot log s
  settleLines t (appendLog .restart .none (.restart d) t)

/-- R160, R161, R163: the log at power-on. -/
def emptyLog : EventLog := { stamp := 0, records := [], nextSeq := 0, sinceRead := 0 }

/-- R176: power-on. -/
def powerUp (s : State) : State := comeUp emptyLog .powerOn s

/-- R171: what a supply failure leaves of a write in progress: each entry whole, old or new (log entry 3). -/
def cutWrite (s : State) : State :=
  let items := (s.mgmt.writes.head?).elim [] (·.items)
  let written := (items.zipIdx.filter fun p => Config.storeEntryWritten s.failures p.2).map (·.1)
  { s with
    mgmt := { s.mgmt with store := writeItems written s.mgmt.store, writes := [] }
    failures := if s.mgmt.writes = [] then s.failures else s.failures + 1 }

/-- R164, R171: the supply fails: the relays fall open. -/
def powerDown (s : State) : State :=
  let s := cutWrite s
  { s with powered := false, lines := s.lines.map fun l => { l with output := false } }

/-- R175: the wait has ended with no transaction in progress: the bridge behaves as at power-on, keeping the log and the
counter.  A write still in progress is left as a supply failure leaves it (log entry 18), and a P-line turn in progress is
dropped with any frame of it on the line (DESIGN CHOICE, log entry 63). -/
def restartNow (s : State) : State :=
  if s.mgmt.wait.isSome ∧ s.sline.txn = none then comeUp { s.log with sinceRead := 0 } .restart (cutWrite s) else s

/-- R160: the counter advances from its greatest value. -/
def wrapStamp (s : State) : State := appendLog .timestampWrap .none .zero { s with log := { s.log with stamp := 0 } }

end Sys2Proof.Machine
end

