-- ==== Sys2Proof/Machine/Exec.lean ====
section
/-! DEFINITION. The meaning of every command: one definition for each row of the table of operations and events, over the
operations of the blocks.

A command acts while the supply is on; while it is off only POWER ON has an effect (log entry 19).  After its effect the
stations whose content it changed join the early-poll list (R151) and the common lines follow the conditions (R165). -/

namespace Sys2Proof.Machine

/-- What a command's effect, from state `before`, brings about in the Services Line Scheduler and the Common Lines. -/
def finish (before s : State) : State := settleLines before (reportChanges before s)

/-- A command with an effect on the bridge in service. -/
def effect (f : State → State) (s : State) : Host.Outcome State Fault Refusal :=
  .next (if s.powered then finish s (f (beginEvent s)) else s)

/-- R119, R123: the end of a frame on the P-line leaves its receiver in HUNT, in whatever state it stood: a command that is
a P-line frame is a frame taken whole (DEDUCED, log entry 21). -/
def fromP (f : State → State) (s : State) : State := f (setRx .p .hunt s)

/-! ### Power (R171, R176) -/

/-- R176: POWER_ON. -/
def execPowerOn (s : State) : Host.Outcome State Fault Refusal := .next (powerUp s)

/-- R164, R171: SUPPLY_FAILURE. -/
def execSupplyFailure (s : State) : Host.Outcome State Fault Refusal := .next (if s.powered then powerDown s else s)

/-! ### Alarm reports (R2, R3, R8, R14, R132) -/

/-- R2, R132, R134: an ALARM REPORT handed to Zone Intake, whatever its destination, and offered to the filter list. -/
def alarmReport (k : AlarmKind) (h : Hdr) (d : Device) (seq : Byte) (tail : List Byte) (f : Fin 256 → State → State)
    (s : State) : State :=
  filterFrame (frameWith h kindAlarmReport (alarmPayload k d seq tail)) (intake k d seq f s)

/-- R8: DETECT. -/
def execDetect (h : Hdr) (panel : Fin 16) (point : Fin 4096) (seq : Byte) (tail : List Byte) (s : State) :
    Host.Outcome State Fault Refusal :=
  effect (fromP (alarmReport .detect h { panel, point } seq tail fun z => takeDetect { panel, point } z seq)) s

/-- R14: FAULT. -/
def execFault (h : Hdr) (panel : Fin 16) (point : Fin 4096) (seq : Byte) (tail : List Byte) (s : State) :
    Host.Outcome State Fault Refusal :=
  effect (fromP (alarmReport .fault h { panel, point } seq tail fun z => takeFault true z seq)) s

/-- R14: FAULT_CLEAR. -/
def execFaultClear (h : Hdr) (panel : Fin 16) (point : Fin 4096) (seq : Byte) (tail : List Byte) (s : State) :
    Host.Outcome State Fault Refusal :=
  effect (fromP (alarmReport .faultClear h { panel, point } seq tail fun z => takeFault false z seq)) s

/-- R14: NORMAL leaves the zone as it was. -/
def execNormal (h : Hdr) (panel : Fin 16) (point : Fin 4096) (seq : Byte) (tail : List Byte) (s : State) :
    Host.Outcome State Fault Refusal :=
  effect (fromP (alarmReport .normal h { panel, point } seq tail fun _ s => s)) s

/-- R2: ALARM_REPORT_DISCARDED has no effect on Zone Intake and is still offered to the filter list. -/
def execAlarmReportDiscarded (h : Hdr) (payload : List Byte) (s : State) : Host.Outcome State Fault Refusal :=
  effect (fromP (filterFrame (frameWith h kindAlarmReport payload))) s

/-- R24, R132: REGIME_RESET to the bridge; otherwise the frame goes to the filter list. -/
def execRegimeReset (h : Hdr) (payload : List Byte) (s : State) : Host.Outcome State Fault Refusal :=
  effect (fromP fun s =>
    if toBridge s h.dst then takeReset h.src s else filterFrame (frameWith h kindRegimeReset payload) s) s

/-! ### Brigade commands (R48, R132, R133) -/

/-- R132, R133: a BRIGADE COMMAND: to the bridge and from the brigade list it is carried out; from another source it is
refused and logged, by the command field of its payload; not to the bridge it goes to the filter list. -/
def brigade (h : Hdr) (payload : List Byte) (act : State → State) (s : State) : State :=
  if toBridge s h.dst then
    if inBrigade s h.src then act s
    else appendLog .commandRefused (.stationAddress h.src) (.command (payload.head?.getD 0)) s
  else filterFrame (frameWith h kindBrigadeCommand payload) s

/-- R49: PHASE_HOLD. -/
def execPhaseHold (h : Hdr) (tail : List Byte) (s : State) : Host.Outcome State Fault Refusal :=
  effect (fromP (brigade h (brigadeCode .phaseHold :: tail) (planCommand h.src .phaseHold hold))) s

/-- R50: PHASE_STEP. -/
def execPhaseStep (h : Hdr) (tail : List Byte) (s : State) : Host.Outcome State Fault Refusal :=
  effect (fromP (brigade h (brigadeCode .phaseStep :: tail) (planCommand h.src .phaseStep stepPlan))) s

/-- R51: PHASE_RUN. -/
def execPhaseRun (h : Hdr) (tail : List Byte) (s : State) : Host.Outcome State Fault Refusal :=
  effect (fromP (brigade h (brigadeCode .phaseRun :: tail) (planCommand h.src .phaseRun run))) s

/-- R52: GENERAL_EVACUATE. -/
def execGeneralEvacuate (h : Hdr) (tail : List Byte) (s : State) : Host.Outcome State Fault Refusal :=
  effect (fromP (brigade h (brigadeCode .generalEvacuate :: tail) (evacuateAll h.src))) s

/-- R110: LIVE_TALK_START. -/
def execLiveTalkStart (h : Hdr) (floors : FloorSet) (tail : List Byte) (s : State) : Host.Outcome State Fault Refusal :=
  effect (fromP (brigade h (brigadeCode .liveTalkStart :: (floorSetBytes floors ++ tail))
    (ownerCommand h.src .liveTalkStart (liveTalkStart floors)))) s

/-- R111: LIVE_TALK_END. -/
def execLiveTalkEnd (h : Hdr) (tail : List Byte) (s : State) : Host.Outcome State Fault Refusal :=
  effect (fromP (brigade h (brigadeCode .liveTalkEnd :: tail) (ownerCommand h.src .liveTalkEnd liveTalkEnd))) s

/-- R72: LIFT_RELEASE. -/
def execLiftRelease (h : Hdr) (bank : Fin 2) (tail : List Byte) (s : State) : Host.Outcome State Fault Refusal :=
  effect (fromP (brigade h (brigadeCode .liftRelease :: (b1 (bank.val + 1) ++ tail))
    (ownerCommand h.src .liftRelease (liftRelease bank)))) s

/-- R48: BRIGADE_COMMAND_UNKNOWN has no effect on any block and is answered UNKNOWN. -/
def execBrigadeCommandUnknown (h : Hdr) (payload : List Byte) (s : State) : Host.Outcome State Fault Refusal :=
  effect (fromP (brigade h payload fun s => answerCommand h.src payload.head? .unknown s s)) s

/-! ### Turns on the P-line (R126 to R129) -/

/-- R126, R132: POLL: to the own address it grants a turn; to 0 it is taken without effect; otherwise it goes to the
filter list. -/
def execPoll (h : Hdr) (payload : List Byte) (s : State) : Host.Outcome State Fault Refusal :=
  effect (fromP fun s =>
    if h.dst = 0 then s
    else if h.dst = s.addrs.own then grantTurn h.src s
    else filterFrame (frameWith h kindPoll payload) s) s

/-- R126: TURN_FRAME_SENT. -/
def execTurnFrameSent (s : State) : Host.Outcome State Fault Refusal := effect frameSent s

/-- R128: TURN_ABANDONED. -/
def execTurnAbandoned (c : Heard) (s : State) : Host.Outcome State Fault Refusal := effect (abandonTurn c) s

/-- R129: TURN_TIMEOUT. -/
def execTurnTimeout (s : State) : Host.Outcome State Fault Refusal := effect timeoutEnd s

/-! ### Management (chapter 10) -/

/-- R169, R170: LOAD_TABLE. -/
def execLoadTable (h : Hdr) (key : BitVec 32) (params : List Byte) (s : State) : Host.Outcome State Fault Refusal :=
  effect (fromP (manage h key subLoadTable params (decide (3 ≤ params.length)) (loadTable h.src params))) s

/-- R172: READ_TABLE. -/
def execReadTable (h : Hdr) (key : BitVec 32) (params : List Byte) (s : State) : Host.Outcome State Fault Refusal :=
  effect (fromP (manage h key subReadTable params (decide (3 ≤ params.length)) (readTable h.src params))) s

/-- R173: READ_RECORD. -/
def execReadRecord (h : Hdr) (key : BitVec 32) (params : List Byte) (s : State) : Host.Outcome State Fault Refusal :=
  effect (fromP (manage h key subReadRecord params (recordParams params) (readRecord h.src params))) s

/-- R162: READ_LOG. -/
def execReadLog (h : Hdr) (key : BitVec 32) (params : List Byte) (s : State) : Host.Outcome State Fault Refusal :=
  effect (fromP (manage h key subReadLog params (decide (3 ≤ params.length)) (readLog h.src params))) s

/-- R141: READ_CAPTURE. -/
def execReadCapture (h : Hdr) (key : BitVec 32) (params : List Byte) (s : State) : Host.Outcome State Fault Refusal :=
  effect (fromP (manage h key subReadCapture params (decide (1 ≤ params.length)) (readCapture h.src params))) s

/-- R18: ISOLATE. -/
def execIsolate (h : Hdr) (key : BitVec 32) (params : List Byte) (s : State) : Host.Outcome State Fault Refusal :=
  effect (fromP (manage h key subIsolate params (parseScope params).isSome (isolateScope h.src params))) s

/-- R20: DE_ISOLATE. -/
def execDeIsolate (h : Hdr) (key : BitVec 32) (params : List Byte) (s : State) : Host.Outcome State Fault Refusal :=
  effect (fromP (manage h key subDeIsolate params (parseScope params).isSome (deIsolateScope h.src params))) s

/-- R97: RACK_STANDBY_NOW. -/
def execRackStandbyNow (h : Hdr) (key : BitVec 32) (params : List Byte) (s : State) : Host.Outcome State Fault Refusal :=
  effect (fromP (manage h key subRackStandbyNow params (decide (1 ≤ params.length)) (rackStandby h.src params))) s

/-- R97: RACK_COUNTDOWN. -/
def execRackCountdown (h : Hdr) (key : BitVec 32) (params : List Byte) (s : State) : Host.Outcome State Fault Refusal :=
  effect (fromP (manage h key subRackCountdown params (decide (2 ≤ params.length)) (rackCode h.src params))) s

/-- R88: TEST_DOOR. -/
def execTestDoor (h : Hdr) (key : BitVec 32) (params : List Byte) (s : State) : Host.Outcome State Fault Refusal :=
  effect (fromP (manage h key subTestDoor params (decide (2 ≤ params.length)) (doorTest h.src params))) s

/-- R166: ACKNOWLEDGE_LINES. -/
def execAcknowledgeLines (h : Hdr) (key : BitVec 32) (params : List Byte) (s : State) : Host.Outcome State Fault Refusal :=
  effect (fromP (manage h key subAcknowledgeLines params true (acknowledgeAll h.src))) s

/-- R174: SET_KEY. -/
def execSetKey (h : Hdr) (key : BitVec 32) (params : List Byte) (s : State) : Host.Outcome State Fault Refusal :=
  effect (fromP (manage h key subSetKey params (decide (4 ≤ params.length)) (changeKey h.src params))) s

/-- R175: RESTART. -/
def execRestart (h : Hdr) (key : BitVec 32) (params : List Byte) (s : State) : Host.Outcome State Fault Refusal :=
  effect (fromP (manage h key subRestart params true (askRestart h.src))) s

/-- R168 step 4: MANAGE_UNKNOWN_SUBCODE. -/
def execManageUnknownSubcode (h : Hdr) (key : BitVec 32) (sub : Byte) (params : List Byte) (s : State) :
    Host.Outcome State Fault Refusal :=
  effect (fromP (manage h key sub params true (reply h.src sub .unknown 0 []))) s

/-- R168 step 1: MANAGE_SET_ASIDE: to the bridge it has no effect; otherwise it goes to the filter list. -/
def execManageSetAside (h : Hdr) (payload : List Byte) (s : State) : Host.Outcome State Fault Refusal :=
  effect (fromP fun s => if toBridge s h.dst then s else filterFrame (frameWith h kindManage payload) s) s

/-! ### Other frames and the receivers (R119, R120, R134) -/

/-- R134: SERVICE_REQUEST. -/
def execServiceRequest (h : Hdr) (payload : List Byte) (s : State) : Host.Outcome State Fault Refusal :=
  effect (fromP (filterFrame (frameWith h kindServiceRequest payload))) s

/-- R134: UNTAKEN_FRAME. -/
def execUntakenFrame (h : Hdr) (kind : Byte) (payload : List Byte) (s : State) : Host.Outcome State Fault Refusal :=
  effect (fromP (filterFrame (frameWith h kind payload))) s

/-- R120: BAD_FRAME. -/
def execBadFrame (l : Line) (_bytes : List Byte) (s : State) : Host.Outcome State Fault Refusal := effect (takeBadFrame l) s

/-- R119: SILENCE_2MS. -/
def execSilence2ms (l : Line) (s : State) : Host.Outcome State Fault Refusal := effect (fallSilent l) s

/-- R119: BROKEN_CHARACTER. -/
def execBrokenCharacter (l : Line) (s : State) : Host.Outcome State Fault Refusal := effect (hearBroken l) s

/-- R119: FRAME_LENGTH_ABOVE_64. -/
def execFrameLengthAbove64 (l : Line) (s : State) : Host.Outcome State Fault Refusal := effect (hearLong l) s

/-- R119: CHARACTER_IN_HUNT. -/
def execCharacterInHunt (l : Line) (s : State) : Host.Outcome State Fault Refusal := effect (hearInHunt l) s

/-- R119, R130: FRAME_BEGUN. -/
def execFrameBegun (l : Line) (b : Byte) (s : State) : Host.Outcome State Fault Refusal := effect (beginFrame l b) s

/-! ### The services line (chapter 8) -/

/-- R149: NEXT_TRANSACTION. -/
def execNextTransaction (s : State) : Host.Outcome State Fault Refusal := effect nextTxn s

/-- R130: ANSWER_WINDOW_OPEN. -/
def execAnswerWindowOpen (s : State) : Host.Outcome State Fault Refusal := effect openWindow s

/-- R130, R131, R154: STATION_REPLY. -/
def execStationReply (h : Hdr) (payload : List Byte) (s : State) : Host.Outcome State Fault Refusal :=
  effect (takeReply h kindStationReply payload) s

/-- R130, R131, R145: SERVICE_ANSWER. -/
def execServiceAnswer (h : Hdr) (payload : List Byte) (s : State) : Host.Outcome State Fault Refusal :=
  effect (takeReply h kindServiceAnswer payload) s

/-- R131: ANSWER_WINDOW_CLOSE. -/
def execAnswerWindowClose (s : State) : Host.Outcome State Fault Refusal := effect closeWindow s

/-- R130, R131: REJECTED_CANDIDATE. -/
def execRejectedCandidate (cause : RejectCause) (s : State) : Host.Outcome State Fault Refusal :=
  effect (rejectCandidate cause) s

/-- R152: QUIET_LINE_TIMER_EXPIRY. -/
def execQuietLineTimerExpiry (s : State) : Host.Outcome State Fault Refusal := effect quietExpiry s

/-- R144: FORWARD_LIFETIME_EXPIRY. -/
def execForwardLifetimeExpiry (entry : Fin 16) (s : State) : Host.Outcome State Fault Refusal :=
  effect (forwardExpiry entry.val) s

/-! ### Timers of the decision blocks -/

/-- R13: ZONE_WINDOW_EXPIRY. -/
def execZoneWindowExpiry (z : Fin 256) (s : State) : Host.Outcome State Fault Refusal := effect (windowExpiry z) s

/-- R46: DRAIN. -/
def execDrain (stair : Fin 4) (s : State) : Host.Outcome State Fault Refusal := effect (drainStair stair) s

/-- R44: PHASE_TIMER_EXPIRY. -/
def execPhaseTimerExpiry (s : State) : Host.Outcome State Fault Refusal := effect phaseExpiry s

/-- R63: RECALL_TIMER_EXPIRY. -/
def execRecallTimerExpiry (car : Fin 8) (s : State) : Host.Outcome State Fault Refusal := effect (recallExpiry car) s

/-- R85: MISMATCH_TIMER_EXPIRY. -/
def execMismatchTimerExpiry (point : Fin 128) (s : State) : Host.Outcome State Fault Refusal :=
  effect (mismatchExpiry point) s

/-- R82: the relock timer expires, if it runs, and RELOCK DONE is set. -/
def relockExpiry (s : State) : State := if s.doors.relock.isSome then setRelockDone (relockAll s) else s

/-- R82: RELOCK_TIMER_EXPIRY. -/
def execRelockTimerExpiry (s : State) : Host.Outcome State Fault Refusal := effect relockExpiry s

/-- R89: TEST_TIMER_EXPIRY. -/
def execTestTimerExpiry (point : Fin 128) (s : State) : Host.Outcome State Fault Refusal := effect (testExpiry point) s

/-- R95: COUNTDOWN_EXPIRY. -/
def execCountdownExpiry (rack : Fin 4) (s : State) : Host.Outcome State Fault Refusal := effect (countdownEnd rack) s

/-- R105: WARM_UP_TIMER_EXPIRY. -/
def execWarmUpTimerExpiry (ch : Fin 2) (s : State) : Host.Outcome State Fault Refusal := effect (warmUpEnd ch) s

/-- R108: PLAY_TIMER_EXPIRY. -/
def execPlayTimerExpiry (ch : Fin 2) (s : State) : Host.Outcome State Fault Refusal := effect (playEnd ch) s

/-- R109: REST_TIMER_EXPIRY. -/
def execRestTimerExpiry (slot : Fin 16) (s : State) : Host.Outcome State Fault Refusal := effect (restEnd slot) s

/-- R111: LIVE_TALK_LIMIT. -/
def execLiveTalkLimit (s : State) : Host.Outcome State Fault Refusal := effect endLive s

/-- R114: PAGE_LIMIT. -/
def execPageLimit (slot : Fin 16) (s : State) : Host.Outcome State Fault Refusal := effect (pageEnd slot) s

/-- R114: HOLD_DEADLINE. -/
def execHoldDeadline (slot : Fin 16) (s : State) : Host.Outcome State Fault Refusal := effect (holdEnd slot) s

/-- R102: TEST_PERIOD_EXPIRY. -/
def execTestPeriodExpiry (s : State) : Host.Outcome State Fault Refusal := effect testPeriodEnd s

/-! ### Counter, store and restart -/

/-- R160: TIMESTAMP_WRAP. -/
def execTimestampWrap (s : State) : Host.Outcome State Fault Refusal := effect wrapStamp s

/-- R171: STORE_WRITE_END. -/
def execStoreWriteEnd (s : State) : Host.Outcome State Fault Refusal := effect endWrite s

/-- R175, R176: RESTART_WAIT_END; the lines and the early-poll list of the restarted bridge are its own. -/
def execRestartWaitEnd (s : State) : Host.Outcome State Fault Refusal := .next (if s.powered then restartNow s else s)

end Sys2Proof.Machine
end

