-- ==== Sys2Proof/Machine/Clock.lean ====
section
/-! DEFINITION. The passing of time, 10 ms at a time: what a step does when no command waits (log entry 1).

A tick counts every running timer down by one.  A timer found at 0 before a tick is an event that has come due; it is
taken, one a step, before time goes on.  Every event so taken stops its timer or starts it afresh. -/

namespace Sys2Proof.Machine

/-- A timer 10 ms on. -/
def countDown (t : Timer) : Timer := t.map (· - 1)

/-- A stopwatch 10 ms on. -/
def Stopwatch.tick (w : Stopwatch) : Stopwatch := if w.running then { w with left := w.left - 1 } else w

/-- A timer that has run out. -/
def out (t : Timer) : Bool := t == some 0

/-- R35: the plan clock, which runs while the regime is ACTIVE, 10 ms on. -/
def tickPlan (s : State) : Sequencer :=
  let q := { s.seq with phase := s.seq.phase.tick }
  if s.regime.state = .active then
    if q.planTicks < 99 then { q with planTicks := q.planTicks + 1 }
    else { q with planTicks := 0, planClock := planValue (q.planClock + 1) }
  else q

/-- R95: the racks 10 ms on. -/
def tickRacks (s : State) : Tbl Rack 4 :=
  mapIdx (fun r x => if countdownRuns s r then { x with countdown := x.countdown - 1 } else x) s.ann.racks

/-- A job 10 ms on. -/
def tickJob (x : Job) : Job := { x with rest := countDown x.rest, pageLimit := countDown x.pageLimit }

/-- A channel 10 ms on. -/
def tickChannel (c : Channel) : Channel := { c with warm := countDown c.warm, play := countDown c.play }

/-- Every timer 10 ms on; the counter apart. -/
def tickTimers (s : State) : State :=
  { s with
    zones := { s.zones with table := s.zones.table.map fun z => { z with window := countDown z.window } }
    seq := tickPlan s
    lifts := { s.lifts with cars := s.lifts.cars.map fun c => c.map fun c => { c with timer := countDown c.timer } }
    doors := {
      points := s.doors.points.map fun p => p.map fun p => { p with mismatch := countDown p.mismatch, test := countDown p.test }
      relock := countDown s.doors.relock }
    ann := { s.ann with
      racks := tickRacks s
      jobs := s.ann.jobs.map fun j => j.map tickJob
      channels := s.ann.channels.map tickChannel
      testTimer := countDown s.ann.testTimer
      liveLimit := countDown s.ann.liveLimit }
    port := { s.port with timeout := s.port.timeout.tick }
    sline := { s.sline with
      quietTimer := countDown s.sline.quietTimer
      txn := s.sline.txn.map fun t => { t with window := countDown t.window } }
    mgmt := { s.mgmt with wait := countDown s.mgmt.wait } }

/-- R160: the counter 10 ms on; its wrap is an event. -/
def tickCounter (s : State) : State :=
  if s.log.stamp = BitVec.allOnes 32 then finish s (wrapStamp (beginEvent s)) else { s with log := { s.log with stamp := s.log.stamp + 1 } }

/-- 10 ms pass; a frame of the turn in a gap starts within them (R126; log entry 12). -/
def tick (s : State) : State := tickCounter (startFrame (tickTimers s))

/-- The first index of a table whose record has come due, as a command. -/
def dueAt {n : Nat} (p : Fin n → Bool) (c : Fin n → Instr) : Option Instr := (first? p).map c

/-- R46: whether the first entry of a stair's load list has expired. -/
def drained (s : State) (st : Fin 4) : Bool :=
  (s.seq.stairs.get st).loads.head?.any fun e => decide (e.expiry ≤ s.seq.planClock)

/-- R114: whether a job's hold deadline, which is at most 30 s ahead, has come. -/
def holdPassed (s : State) (x : Job) : Bool := x.hold.any fun t => decide ((now s - t).toNat < 2 ^ 31)

/-- R144: whether a forward entry has had its lifetime, and its expiry is not yet taken. -/
def expired (s : State) (e : Forward) : Bool := !e.late && decide (ticks 2 ≤ elapsed (now s) e.arrival)

/-- R175: whether the wait of a RESTART has ended. -/
def waitOver (s : State) : Bool :=
  s.mgmt.wait.isSome && s.sline.txn.isNone && (s.cls.queue.isEmpty || out s.mgmt.wait)

/-- A single event that has come due when `p` holds. -/
def dueIf (p : Bool) (c : Instr) : Option Instr := if p then some c else none

/-- Every kind of event with a timer, in the order in which events due together are taken (log entry 1). -/
def dueList (s : State) : List (Option Instr) :=
  [ dueAt (fun z => out (s.zones.table.get z).window) .zoneWindowExpiry
    , dueAt (drained s) .drain
    , dueIf (s.seq.phase.running && s.seq.phase.left == 0) .phaseTimerExpiry
    , dueAt (fun i => (s.lifts.cars.get i).any fun c => out c.timer) .recallTimerExpiry
    , dueAt (fun i => (s.doors.points.get i).any fun p => out p.mismatch) .mismatchTimerExpiry
    , dueIf (out s.doors.relock) .relockTimerExpiry
    , dueAt (fun i => (s.doors.points.get i).any fun p => out p.test) .testTimerExpiry
    , dueAt (fun r => countdownRuns s r && (s.ann.racks.get r).countdown == 0) .countdownExpiry
    , dueAt (fun k => out (s.ann.channels.get k).warm) .warmUpTimerExpiry
    , dueAt (fun k => out (s.ann.channels.get k).play) .playTimerExpiry
    , dueAt (fun j => (s.ann.jobs.get j).any fun x => out x.rest) .restTimerExpiry
    , dueIf (out s.ann.liveLimit) .liveTalkLimit
    , dueAt (fun j => (s.ann.jobs.get j).any fun x => out x.pageLimit) .pageLimit
    , dueAt (fun j => (s.ann.jobs.get j).any (holdPassed s)) .holdDeadline
    , dueIf (out s.ann.testTimer) .testPeriodExpiry
    , dueAt (fun i => (s.cls.queue[i.val]?).any (expired s)) .forwardLifetimeExpiry
    , dueIf (out s.sline.quietTimer) .quietLineTimerExpiry
    , dueIf (s.port.timeout.running && s.port.timeout.left == 0) .turnTimeout
    , dueIf (s.sline.txn.any fun t => out t.window) .answerWindowClose
    , dueIf (waitOver s) .restartWaitEnd ]

/-- The event that has come due, if any. -/
def due (s : State) : Option Instr := (dueList s).findSome? id

end Sys2Proof.Machine
end

