-- ==== Sys2Proof/Machine/Dispatch.lean ====
section
/-! DEFINITION. The dispatch: one arm for each command. -/

namespace Sys2Proof.Machine

def exec (i : Instr) (s : State) : Host.Outcome State Fault Refusal :=
  match i with
  | .powerOn => Sys2Proof.Machine.execPowerOn s
  | .detect h panel point seq tail => Sys2Proof.Machine.execDetect h panel point seq tail s
  | .fault h panel point seq tail => Sys2Proof.Machine.execFault h panel point seq tail s
  | .faultClear h panel point seq tail => Sys2Proof.Machine.execFaultClear h panel point seq tail s
  | .normal h panel point seq tail => Sys2Proof.Machine.execNormal h panel point seq tail s
  | .regimeReset h payload => Sys2Proof.Machine.execRegimeReset h payload s
  | .phaseHold h tail => Sys2Proof.Machine.execPhaseHold h tail s
  | .phaseStep h tail => Sys2Proof.Machine.execPhaseStep h tail s
  | .phaseRun h tail => Sys2Proof.Machine.execPhaseRun h tail s
  | .generalEvacuate h tail => Sys2Proof.Machine.execGeneralEvacuate h tail s
  | .liveTalkStart h floors tail => Sys2Proof.Machine.execLiveTalkStart h floors tail s
  | .liveTalkEnd h tail => Sys2Proof.Machine.execLiveTalkEnd h tail s
  | .liftRelease h bank tail => Sys2Proof.Machine.execLiftRelease h bank tail s
  | .brigadeCommandUnknown h payload => Sys2Proof.Machine.execBrigadeCommandUnknown h payload s
  | .poll h payload => Sys2Proof.Machine.execPoll h payload s
  | .turnFrameSent => Sys2Proof.Machine.execTurnFrameSent s
  | .turnAbandoned c => Sys2Proof.Machine.execTurnAbandoned c s
  | .turnTimeout => Sys2Proof.Machine.execTurnTimeout s
  | .loadTable h key params => Sys2Proof.Machine.execLoadTable h key params s
  | .readTable h key params => Sys2Proof.Machine.execReadTable h key params s
  | .readRecord h key params => Sys2Proof.Machine.execReadRecord h key params s
  | .readLog h key params => Sys2Proof.Machine.execReadLog h key params s
  | .readCapture h key params => Sys2Proof.Machine.execReadCapture h key params s
  | .isolate h key params => Sys2Proof.Machine.execIsolate h key params s
  | .deIsolate h key params => Sys2Proof.Machine.execDeIsolate h key params s
  | .rackStandbyNow h key params => Sys2Proof.Machine.execRackStandbyNow h key params s
  | .rackCountdown h key params => Sys2Proof.Machine.execRackCountdown h key params s
  | .testDoor h key params => Sys2Proof.Machine.execTestDoor h key params s
  | .acknowledgeLines h key params => Sys2Proof.Machine.execAcknowledgeLines h key params s
  | .setKey h key params => Sys2Proof.Machine.execSetKey h key params s
  | .restart h key params => Sys2Proof.Machine.execRestart h key params s
  | .manageUnknownSubcode h key sub params => Sys2Proof.Machine.execManageUnknownSubcode h key sub params s
  | .serviceRequest h payload => Sys2Proof.Machine.execServiceRequest h payload s
  | .untakenFrame h kind payload => Sys2Proof.Machine.execUntakenFrame h kind payload s
  | .badFrame l bytes => Sys2Proof.Machine.execBadFrame l bytes s
  | .silence2ms l => Sys2Proof.Machine.execSilence2ms l s
  | .nextTransaction => Sys2Proof.Machine.execNextTransaction s
  | .stationReply h payload => Sys2Proof.Machine.execStationReply h payload s
  | .serviceAnswer h payload => Sys2Proof.Machine.execServiceAnswer h payload s
  | .answerWindowClose => Sys2Proof.Machine.execAnswerWindowClose s
  | .rejectedCandidate cause => Sys2Proof.Machine.execRejectedCandidate cause s
  | .zoneWindowExpiry z => Sys2Proof.Machine.execZoneWindowExpiry z s
  | .drain stair => Sys2Proof.Machine.execDrain stair s
  | .phaseTimerExpiry => Sys2Proof.Machine.execPhaseTimerExpiry s
  | .recallTimerExpiry car => Sys2Proof.Machine.execRecallTimerExpiry car s
  | .mismatchTimerExpiry point => Sys2Proof.Machine.execMismatchTimerExpiry point s
  | .relockTimerExpiry => Sys2Proof.Machine.execRelockTimerExpiry s
  | .testTimerExpiry point => Sys2Proof.Machine.execTestTimerExpiry point s
  | .countdownExpiry rack => Sys2Proof.Machine.execCountdownExpiry rack s
  | .warmUpTimerExpiry ch => Sys2Proof.Machine.execWarmUpTimerExpiry ch s
  | .playTimerExpiry ch => Sys2Proof.Machine.execPlayTimerExpiry ch s
  | .restTimerExpiry slot => Sys2Proof.Machine.execRestTimerExpiry slot s
  | .liveTalkLimit => Sys2Proof.Machine.execLiveTalkLimit s
  | .pageLimit slot => Sys2Proof.Machine.execPageLimit slot s
  | .holdDeadline slot => Sys2Proof.Machine.execHoldDeadline slot s
  | .testPeriodExpiry => Sys2Proof.Machine.execTestPeriodExpiry s
  | .forwardLifetimeExpiry entry => Sys2Proof.Machine.execForwardLifetimeExpiry entry s
  | .quietLineTimerExpiry => Sys2Proof.Machine.execQuietLineTimerExpiry s
  | .timestampWrap => Sys2Proof.Machine.execTimestampWrap s
  | .storeWriteEnd => Sys2Proof.Machine.execStoreWriteEnd s
  | .restartWaitEnd => Sys2Proof.Machine.execRestartWaitEnd s
  | .supplyFailure => Sys2Proof.Machine.execSupplyFailure s
  | .brokenCharacter l => Sys2Proof.Machine.execBrokenCharacter l s
  | .frameLengthAbove64 l => Sys2Proof.Machine.execFrameLengthAbove64 l s
  | .characterInHunt l => Sys2Proof.Machine.execCharacterInHunt l s
  | .frameBegun l b => Sys2Proof.Machine.execFrameBegun l b s
  | .answerWindowOpen => Sys2Proof.Machine.execAnswerWindowOpen s
  | .alarmReportDiscarded h payload => Sys2Proof.Machine.execAlarmReportDiscarded h payload s
  | .manageSetAside h payload => Sys2Proof.Machine.execManageSetAside h payload s

end Sys2Proof.Machine
end

