-- ==== Sys2Proof/Machine/Step.lean ====
section
/-! DEFINITION. One step: the command at the front of the queue, or, when none waits, 10 ms of time (log entry 1). -/

namespace Sys2Proof.Machine

/-- With no command waiting and the supply on, the event that has come due is taken, or 10 ms pass; with the supply off
the bridge idles. -/
def idle (s : State) : Host.Outcome State Fault Refusal :=
  if s.powered then
    match due s with
    | some c => exec c s
    | none => .next (tick s)
  else .next s

/-- One step: the command at the front of the queue is run with the rest of the queue. -/
def step (s : State) : Host.Outcome State Fault Refusal :=
  match s.pending with
  | c :: rest => exec c { s with pending := rest }
  | [] => idle s

/-- The state with the command a word spells at the front of its queue. -/
def State.withFetchWord (s : State) (nbits w : Nat) : State :=
  match decodeTableWord nbits w with
  | some c => { s with pending := c :: s.pending }
  | none => s

end Sys2Proof.Machine
end

