-- ==== Sys2Proof/Safety.lean ====
section
/-! DEFINITION. The terms claims use: what a command leaves alone, how the event log and the report queue may change, and
the laws the description states of every state the bridge is in. -/

namespace Sys2Proof.Safety

open Sys2Proof.Machine

/-! ### What may change -/

/-- The parts of the state.  `allClear` and `relock` are the two completion flags, `turn` the turn and P SILENT, `txn` the transaction
with the rotation pointer and the burst count, `supply` the supply, the count of its failures and the commands that
wait.  The event log, the report queue, the regime state and the line mode are spoken of apart. -/
inductive Block
  | zones
  | allClear
  | relock
  | seq
  | lifts
  | doors
  | ann
  | turn
  | receivers
  | cls
  | stations
  | txn
  | early
  | lines
  | params
  | addrs
  | mgmt
  | supply
deriving DecidableEq, Repr

/-- A part of the state is the same in two states. -/
def same (b : Block) (s t : State) : Prop :=
  match b with
  | .zones => t.zones = s.zones
  | .allClear => t.regime.allClearDone = s.regime.allClearDone
  | .relock => t.regime.relockDone = s.regime.relockDone
  | .seq => t.seq = s.seq
  | .lifts => t.lifts = s.lifts
  | .doors => t.doors = s.doors
  | .ann => t.ann = s.ann
  | .turn => t.port.turn = s.port.turn ∧ t.port.silent = s.port.silent
  | .receivers => t.port.line = s.port.line ∧ t.sline.line = s.sline.line
  | .cls => t.cls = s.cls
  | .stations => t.sline.stations = s.sline.stations
  | .txn => t.sline.txn = s.sline.txn ∧ t.sline.pointer = s.sline.pointer ∧ t.sline.burst = s.sline.burst
  | .early => t.sline.early = s.sline.early
  | .lines => t.lines = s.lines
  | .params => t.params = s.params
  | .addrs => t.addrs = s.addrs
  | .mgmt => t.mgmt = s.mgmt
  | .supply => t.powered = s.powered ∧ t.failures = s.failures ∧ t.pending = s.pending

/-- What a DETECT, a window expiry or an evacuation that follows from one may change. -/
abbrev alarmBlocks : List Block := [.zones, .mgmt, .seq, .lifts, .doors, .ann, .allClear, .early, .lines]

/-- R161: an event log that has had records appended, and nothing else done to it. -/
inductive Appends : EventLog → EventLog → Prop
  | refl (l : EventLog) : Appends l l
  | append {l m : EventLog} (k : EventKind) (subject : Subject) (d : Detail) :
      Appends l m → Appends l (appendRecord m k subject d)

/-- R124, R125: a report queue that has had entries offered to it, and nothing else done to it: an entry is placed in a
queue with room, or displaces the youngest entry of the least urgent class. -/
inductive Offers : List QEntry → List QEntry → Prop
  | refl (q : List QEntry) : Offers q q
  | placed {q r : List QEntry} (e : QEntry) : Offers q r → r.length < 32 → Offers q (place e r)
  | displaced {q r : List QEntry} (e w : QEntry) :
      Offers q r → r.getLast? = some w → e.cls < w.cls → Offers q (place e r.dropLast)

/-- What an event may do: change the parts of the state listed, append to the event log, offer entries to the report
queue, start the turn timeout (R129) and bring the line back to BRISK (R152).  The regime state is not spoken of. -/
structure Keeps (bs : List Block) (s t : State) : Prop where
  only : ∀ b, b ∉ bs → same b s t
  log : Appends s.log t.log
  queue : Offers s.port.queue t.port.queue
  timeout : t.port.timeout = s.port.timeout ∨ t.port.timeout = runningTimeout
  mode : t.sline.mode = s.sline.mode ∨ t.sline.mode = .brisk

/-- What an event may do that brings the regime to no state but QUIESCENT, and there only from RESTORING with both
completion flags set (R27), and that clears neither flag; the quiet-line timer stays or starts at full (R152). -/
structure Within (bs : List Block) (s t : State) : Prop extends Keeps bs s t where
  regime : t.regime.state = s.regime.state ∨ (s.regime.state = .restoring ∧ t.regime.state = .quiescent ∧
    t.regime.allClearDone = true ∧ t.regime.relockDone = true)
  allClearUp : s.regime.allClearDone = true → t.regime.allClearDone = true
  relockUp : s.regime.relockDone = true → t.regime.relockDone = true
  quiet : t.sline.quietTimer = s.sline.quietTimer ∨ t.sline.quietTimer = some (ticks 600)

/-! ### Reports and records of one event -/

/-- R124, R125: exactly one report has been offered to the queue, and nothing has been logged but what the offer logs. -/
def Offered (dest : Byte) (cls : Nat) (p : Payload) (s t : State) : Prop :=
  t.port.queue = (queueReport dest cls p s).port.queue ∧ t.log = (queueReport dest cls p s).log

/-- R161, R124: one record has been logged, and then exactly one report offered to the queue. -/
def LoggedOffered (k : EventKind) (subject : Subject) (d : Detail) (dest : Byte) (cls : Nat) (p : Payload)
    (s t : State) : Prop :=
  Offered dest cls p (appendLog k subject d s) t

/-- Nothing has been logged and nothing offered to the queue. -/
def Silent (s t : State) : Prop := t.log = s.log ∧ t.port.queue = s.port.queue

/-- R47: exactly one SEQUENCER REPORT has been offered, which answers a brigade command to its source. -/
def Answered (src : Byte) (code : Option Byte) (a : Answer) (s t : State) : Prop :=
  ∃ r : SeqReport, r.cause = .command code a ∧ Offered src 2 (.sequencer r) s t

/-- R132, R133: the bridge is in service, and a BRIGADE COMMAND with this header is carried out. -/
def BrigadeOpen (h : Hdr) (s : State) : Prop :=
  s.powered = true ∧ toBridge s h.dst = true ∧ inBrigade s h.src = true

/-- R132, R168: the bridge is in service, and a MANAGE frame with this header and key has its subcode handled. -/
def ManageOpen (h : Hdr) (key : BitVec 32) (s : State) : Prop :=
  s.powered = true ∧ toBridge s h.dst = true ∧ s.mgmt.writes = [] ∧ s.mgmt.wait = none ∧ key = s.mgmt.key

/-- The MANAGE frames whose subcode the bridge knows, each with its subcode (R168). -/
def manageFrames (h : Hdr) (key : BitVec 32) (params : List Byte) : List (Instr × Byte) :=
  [(.loadTable h key params, 0), (.readTable h key params, 1), (.readRecord h key params, 2), (.readLog h key params, 3),
   (.readCapture h key params, 4), (.isolate h key params, 5), (.deIsolate h key params, 6),
   (.rackStandbyNow h key params, 7), (.rackCountdown h key params, 8), (.testDoor h key params, 9),
   (.acknowledgeLines h key params, 10), (.setKey h key params, 11), (.restart h key params, 12)]

/-- The BRIGADE COMMAND frames of the seven commands, each with the code its payload begins with (R48). -/
def brigadeFrames (h : Hdr) (floors : FloorSet) (bank : Fin 2) (tail : List Byte) : List (Instr × Byte) :=
  [(.phaseHold h tail, 0), (.phaseStep h tail, 1), (.phaseRun h tail, 2), (.generalEvacuate h tail, 3),
   (.liveTalkStart h floors tail, 4), (.liveTalkEnd h tail, 5), (.liftRelease h bank tail, 6)]

/-- The events of a line's receiver (R119), a character among them. -/
def receiverEvents (l : Line) (b : Byte) : List Instr :=
  [.silence2ms l, .badFrame l [], .brokenCharacter l, .frameLengthAbove64 l, .characterInHunt l, .frameBegun l b]

/-- The ALARM REPORT frames of the four kinds, each with its kind (R2). -/
def alarmFrames (h : Hdr) (d : Device) (seq : Byte) (tail : List Byte) : List (Instr × AlarmKind) :=
  [(.detect h d.panel d.point seq tail, .detect), (.fault h d.panel d.point seq tail, .fault),
   (.faultClear h d.panel d.point seq tail, .faultClear), (.normal h d.panel d.point seq tail, .normal)]

/-- R105: of the floors a warm-up holds, those whose rack is not ON. -/
def unready (s : State) (held : FloorSet) : FloorSet :=
  held &&& Machine.setOf fun f => inUse s f && (s.ann.racks.get (s.seq.floors.get f).rack).power != .on

/-! ### Power-on (R171, R176) -/

/-- R171: what a store makes of a blank bridge: its items applied one after another, in the order the store holds them. -/
def fromStore (log : EventLog) (s : State) : State :=
  s.mgmt.store.foldl applyItem { State.blank with
    log, failures := s.failures, pending := s.pending, mgmt := { State.blank.mgmt with store := s.mgmt.store } }

/-- R176: the bridge `t` that power-on, or the end of a RESTART's wait, makes of the store of `s` and of the event log
`log`, whose next record is the RESTART record: the configuration comes from the store (R171), and every block stands at
its values after power-on. -/
structure PoweredOn (log : EventLog) (d : RestartDetail) (s t : State) : Prop where
  serves : t.powered = true ∧ t.failures = s.failures ∧ t.pending = s.pending
  logged : t.log = appendRecord log .restart .none (.restart d)
  params : t.params = (fromStore log s).params
  addrs : t.addrs = (fromStore log s).addrs
  mgmt : t.mgmt = { key := (fromStore log s).mgmt.key, store := s.mgmt.store, writes := [], wait := none }
  zones : t.zones = (fromStore log s).zones
  zoneValues : ∀ z, t.zones.table.get z = { Zone.blank with
    cfg := (t.zones.table.get z).cfg, isolated := (t.zones.table.get z).isolated }
  isolation : ∀ e ∈ t.zones.isolation, e.active = true
  regime : t.regime = { state := .quiescent, allClearDone := false, relockDone := false }
  plan : t.seq = { floors := (fromStore log s).seq.floors, stairs := (fromStore log s).seq.stairs, state := .idle,
                   phase := { left := 0, running := false }, planClock := 0, planTicks := 0 }
  floorValues : ∀ f, t.seq.floors.get f = { Floor.blank with
    occupancy := (t.seq.floors.get f).occupancy, mask := (t.seq.floors.get f).mask, rack := (t.seq.floors.get f).rack }
  stairValues : ∀ st, (t.seq.stairs.get st).loads = [] ∧ (t.seq.stairs.get st).committed = 0 ∧
    (t.seq.stairs.get st).inService = true
  lifts : t.lifts = (fromStore log s).lifts
  carValues : ∀ i c, t.lifts.cars.get i = some c → c = freshCar c.bank c.index c.served
  doors : t.doors = { points := (fromStore log s).doors.points, relock := none }
  pointValues : ∀ i p, t.doors.points.get i = some p → p = freshPoint p.controller p.output p.floor p.stair
  rows : t.ann.rows = (fromStore log s).ann.rows
  racks : t.ann.racks = (fromStore log s).ann.racks
  rackValues : ∀ r, let x := t.ann.racks.get r
    x.address ≠ 0 → x.power = .waking ∧ x.commanded = .on ∧ x.countdown = countdownTicks x.code ∧
      countdownRuns t r = false ∧ (∀ k, x.ended.get k = none) ∧ x.reported = none
  jobs : (∀ j, t.ann.jobs.get j = none) ∧ t.ann.owed = [] ∧ t.ann.liveLimit = none
  channels : ∀ k, t.ann.channels.get k = Channel.blank
  tenants : t.ann.tenants = (fromStore log s).ann.tenants
  pages : ∀ e n, t.ann.tenants.get e = some n → n.status = .idle
  testTimer : t.ann.testTimer =
    if t.params.testPeriod = 0 then none else some (ticks (t.params.testPeriod * 3600))
  port : t.port = { queue := [], turn := none, timeout := presetTimeout, silent := false,
                    line := { rx := .hunt, rate := t.params.rateP } }
  cls : t.cls = { filter := (fromStore log s).cls.filter, slots := Tbl.fill 4 none, queue := [] }
  sline : t.sline = { stations := (fromStore log s).sline.stations, pointer := none, early := [], burst := 0,
                      mode := .brisk, quietTimer := some (ticks 600), txn := none,
                      line := { rx := .hunt, rate := t.params.rateS } }
  stations : ∀ i x, t.sline.stations.get i = some x → x.lost = false ∧ x.noAnswer = 0 ∧ x.lastReply = none
  lines : ∀ l, (t.lines.get l).route = ((fromStore log s).lines.get l).route ∧
    (t.lines.get l).latched = ((fromStore log s).lines.get l).latched
  notes : t.notes = { onsets := 0, owners := [] }

/-! ### Laws of every state -/

/-- R161: consecutive records differ by exactly one in sequence number, modulo 65,536. -/
def Consecutive : List LogRecord → Prop
  | [] => True
  | [_] => True
  | a :: b :: rest => b.seq = a.seq + 1 ∧ Consecutive (b :: rest)

/-- R161, R163: the event log: at most 256 records, numbered one after another, the next number one above the newest, and
a watermark count of at most 256. -/
structure LogInv (l : EventLog) : Prop where
  size : l.records.length ≤ 256
  numbered : Consecutive l.records
  next : ∀ r, l.records.getLast? = some r → l.nextSeq = r.seq + 1
  count : l.sinceRead ≤ 256

/-- R124: the report queue: at most 32 entries, the most urgent first. -/
structure QueueInv (q : List QEntry) : Prop where
  size : q.length ≤ 32
  ordered : q.Pairwise fun a b => a.cls ≤ b.cls

/-- R32: a stair's committed load is the sum of the shares of its load list, and the list is in order of expiry. -/
structure StairInv (x : Stair) : Prop where
  balance : x.committed = (x.loads.map (·.share)).sum
  ordered : x.loads.Pairwise fun a b => a.expiry ≤ b.expiry

/-- R32: every stair's load list and committed load. -/
def LoadInv (s : State) : Prop := ∀ st, StairInv (s.seq.stairs.get st)

/-- R23: no zone is in ALARM while the regime is QUIESCENT or RESTORING. -/
def AlarmInv (s : State) : Prop := s.regime.state ≠ .active → ∀ z, (s.zones.table.get z).state ≠ .alarm

/-- Nothing stays noted between events (log entry 34). -/
def NotesInv (s : State) : Prop := s.notes = { onsets := 0, owners := [] }

/-- R164, R165: the output of a common line is active exactly while the supply is on and its latch is set or a routed
condition holds. -/
def LinesInv (s : State) : Prop :=
  ∀ l, (s.lines.get l).output = (s.powered && ((s.lines.get l).latch || anyHolds s (s.lines.get l)))

end Sys2Proof.Safety
end

