-- ==== Sys2Proof/Certificates/Slice0/Obligations.lean ====
section
/-! DEFINITION. The statements made about the bridge, for the provers.

A statement about a command concludes that the command answers a next state, says what that state holds, and says through
`Within` or `Keeps` that every part not listed is as it was.  A block listed is one the rules let the command change. -/

open Sys2Proof Sys2Proof.Machine Sys2Proof.Safety

/-! ### The queue of commands, reset, and the frames -/

/-- A step with a command waiting runs that command with the rest of the queue (log entry 1). -/
def Obligations.StepRunsFrontCommand : Prop :=
  ∀ (c : Instr) (rest : List Instr) (s : State), s.pending = c :: rest → step s = exec c { s with pending := rest }

/-- With no command waiting, a step idles with the supply off, takes the event that has come due, or lets 10 ms pass: the
model's choice (log entry 1). -/
def Obligations.IdleStepTakesDueEventOrTime : Prop :=
  ∀ s : State, s.pending = [] →
    (s.powered = false → step s = .next s) ∧
    (s.powered = true → ∀ c, due s = some c → step s = exec c s) ∧
    (s.powered = true → due s = none →
      ∃ t, step s = .next t ∧ t.log.stamp = s.log.stamp + 1 ∧ t.powered = true ∧ t.pending = [])

/-- R176: the values after power-on from a blank store, which is where the model's runs begin (log entry 2); and the laws
of every state hold there. -/
def Obligations.ResetServesAndKeepsLaws : Prop :=
  State.reset.powered = true ∧
  State.reset.regime = { state := .quiescent, allClearDone := false, relockDone := false } ∧
  (∀ z, State.reset.zones.table.get z = Zone.blank) ∧
  (∀ f, State.reset.seq.floors.get f = Floor.blank) ∧ State.reset.seq.state = .idle ∧
  (∀ i, State.reset.lifts.cars.get i = none) ∧ (∀ i, State.reset.doors.points.get i = none) ∧
  (∀ j, State.reset.ann.jobs.get j = none) ∧ (∀ k, State.reset.ann.channels.get k = Channel.blank) ∧
  State.reset.port.queue = [] ∧ State.reset.cls.queue = [] ∧ (∀ k, State.reset.cls.slots.get k = none) ∧
  State.reset.sline.early = [] ∧ State.reset.sline.mode = .brisk ∧
  State.reset.port.line.rx = .hunt ∧ State.reset.sline.line.rx = .hunt ∧
  (∀ l, (State.reset.lines.get l).latch = false ∧ (State.reset.lines.get l).output = false) ∧
  State.reset.log.stamp = 0 ∧
  State.reset.log.records =
    [{ seq := 0, stamp := 0, kind := .restart, subject := .none, detail := .restart .powerOn }] ∧
  State.reset.addrs = { own := 0, mainPanel := 0, brigade := Tbl.fill 2 0 } ∧
  State.reset.mgmt = { key := 0, store := [], writes := [], wait := none } ∧
  LogInv State.reset.log ∧ QueueInv State.reset.port.queue ∧ LoadInv State.reset ∧ AlarmInv State.reset ∧
  LinesInv State.reset ∧ NotesInv State.reset

/-- R120, R121, R122, R168: the bytes of the frame that a command is are read back as that command. -/
def Obligations.FramesReadBack : Prop :=
  ∀ i : Instr, i.wf = true → ∀ f, frameOf i = some f → commandOfBytes (frameBytes f) = i

/-! ### Laws every step keeps -/

/-- R161, R163: the event log stays numbered without a gap. -/
def Obligations.StepKeepsLogNumbering : Prop :=
  ∀ s t : State, LogInv s.log → step s = .next t → LogInv t.log

/-- R124: the report queue stays in order and within 32 entries. -/
def Obligations.StepKeepsQueueOrder : Prop :=
  ∀ s t : State, QueueInv s.port.queue → step s = .next t → QueueInv t.port.queue

/-- R32: every stair's committed load stays the sum of its load list, and the list in order of expiry. -/
def Obligations.StepKeepsStairLoads : Prop :=
  ∀ s t : State, LoadInv s → step s = .next t → LoadInv t

/-- R23: no zone comes to be in ALARM outside ACTIVE. -/
def Obligations.StepKeepsAlarmsInActive : Prop :=
  ∀ s t : State, AlarmInv s → step s = .next t → AlarmInv t

/-- R164, R165: the common lines stay in line with their latches and the conditions, and nothing stays noted for a later
event (the model's own field, log entry 34). -/
def Obligations.StepKeepsLinesInLine : Prop :=
  ∀ s t : State, LinesInv s → NotesInv s → step s = .next t → LinesInv t ∧ NotesInv t

/-! ### Shared operations -/

/-- R125. -/
def Obligations.FullQueueGivesWayToUrgent : Prop :=
  ∀ (e : QEntry) (s : State),
    (s.port.queue.length < 32 → (offer e s).port.queue = place e s.port.queue ∧ (offer e s).log = s.log) ∧
    (∀ w, 32 ≤ s.port.queue.length → s.port.queue.getLast? = some w →
      (e.cls < w.cls →
        (offer e s).port.queue = place e s.port.queue.dropLast ∧
        (offer e s).log = appendRecord s.log .reportLost .reportQueue (.reportLost (payloadKind w.payload) w.cls true)) ∧
      (w.cls ≤ e.cls →
        (offer e s).port.queue = s.port.queue ∧
        (offer e s).log = appendRecord s.log .reportLost .reportQueue (.reportLost (payloadKind e.payload) e.cls false))) ∧
    Within [] s (offer e s)

/-- R165: what an event from `before` to `s` makes of a line, the onsets noted within the event counted; an append that
reaches the log watermark and a car that comes to be OVERDUE or STRANDED where none was are noted.  That a line follows at
the end of the event is the model's reading (log entry 11). -/
def Obligations.LineFollowsConditions : Prop :=
  (∀ (before s : State) (i : Fin 2),
    let x := s.lines.get i
    let y := (settleLines before s).lines.get i
    y.route = x.route ∧ y.latched = x.latched ∧
    (x.latched = false → x.latch = false →
      y.latch = false ∧ (y.output = true ↔ ∃ c, x.route.getLsbD c.ctorIdx = true ∧ holds s c = true)) ∧
    (x.latched = true →
      (y.latch = true ↔
        x.latch = true ∨ ∃ c, x.route.getLsbD c.ctorIdx = true ∧
          (noted s c = true ∨ (holds before c = false ∧ holds s c = true))) ∧
      (y.output = true ↔ y.latch = true ∨ ∃ c, x.route.getLsbD c.ctorIdx = true ∧ holds s c = true))) ∧
  (∀ (k : EventKind) (x : Subject) (d : Detail) (s : State) (c : Condition),
    noted (appendLog k x d s) c = true ↔ noted s c = true ∨
      (c = .logWatermark ∧ ¬ s.params.logMark ≤ s.log.sinceRead ∧ s.params.logMark ≤ min 256 (s.log.sinceRead + 1))) ∧
  (∀ (i : Fin 8) (a b : Car) (s : State), s.lifts.cars.get i = some a →
    (∀ j c, s.lifts.cars.get j = some c → c.state ≠ .overdue ∧ c.state ≠ .stranded) →
    b.state = .overdue ∨ b.state = .stranded → noted (placeCar i a b s) .carOverdueOrStranded = true)

/-- R122, R168: the data of a reply is carried whole, in frames of 61 bytes or fewer. -/
def Obligations.ReplyDataCarriedWhole : Prop :=
  ∀ bs : List Byte, (runOn bs).flatten = bs ∧ ∀ f ∈ runOn bs, f.length ≤ 61

/-- R162: a READ LOG of a number held returns the records from that number on; one of the next number returns none. -/
def Obligations.LogReadFromNumberHeld : Prop :=
  ∀ (l : EventLog) (start : BitVec 16) (n : Nat), LogInv l →
    (∀ r ∈ l.records, r.seq = start → (logRecords l start (n + 1)).head? = some r) ∧
    logRecords l l.nextSeq (n + 1) = [] ∧
    (logRecords l start n).length ≤ n ∧ Consecutive (logRecords l start n)

/-- R170: the entries of a load before the first one refused are applied and no other: the state reached is that of those
entries applied one after another, each at its index and none of them refused.  That each entry applied has its stations'
early polls reported before the next (log entry 23), and that the items for the store are the entries as the frame carried
them, before clamping (log entry 35), are the model's readings. -/
def Obligations.LoadStopsAtRefusedEntry : Prop :=
  ∀ (tb : TableId) (i : Nat) (es : List Entry) (s : State),
    let r := applyRun tb i es s
    (∀ k, r.2.1 = some k → k = i + r.1.length ∧ r.1.length < es.length ∧
      ∃ e, es[r.1.length]? = some e ∧ applyEntry tb k e r.2.2 = none) ∧
    (r.2.1 = none → r.1.length = es.length) ∧
    ((es.take r.1.length).zipIdx i).foldlM (fun u p => (applyEntry tb p.2 p.1 u).map (reportChanges u)) s =
      some r.2.2 ∧
    r.1 = (es.take r.1.length).mapIdx fun j e => .entry tb (i + j) e

/-- R39, R43: no promotion with cause PHASE brings a stair above its budget, and an evaluation promotes at most the
floors per step. -/
def Obligations.PhasePromotionsFitBudgets : Prop :=
  ∀ (s : State) (st : Fin 4),
    ((phaseEvaluation s).seq.stairs.get st).budget = (s.seq.stairs.get st).budget ∧
    ((phaseEvaluation s).seq.stairs.get st).committed ≤
      max (s.seq.stairs.get st).committed (s.seq.stairs.get st).budget ∧
    ((List.finRange 64).filter fun f =>
      ((phaseEvaluation s).seq.floors.get f).state != (s.seq.floors.get f).state).length ≤ s.params.floorsPerStep

/-! ### Power and RESTART -/

/-- R176, R171, R161: POWER ON brings every block up at its values after power-on, the tables, the isolation list, the
countdown codes and the key taken from the store; a latch is set only where the RESTART record itself reaches a routed
watermark, and a blank store gives the bridge of `State.reset`.  That it does so from a bridge already in service is the
model's choice (log entry 19), as are the stored list's entries being its places (log entry 39) and the onset at power-on
(log entry 11). -/
def Obligations.PowerOnServes : Prop :=
  ∀ s : State, ∃ t, exec .powerOn s = .next t ∧
    PoweredOn { stamp := 0, records := [], nextSeq := 0, sinceRead := 0 } .powerOn s t ∧
    (∀ l, (t.lines.get l).latch =
      ((t.lines.get l).latched && (t.lines.get l).route.getLsbD 8 && decide (t.params.logMark ≤ 1))) ∧
    LinesInv t ∧
    (s.mgmt.store = [] → t = { State.reset with failures := s.failures, pending := s.pending })

/-- R164, R171: SUPPLY FAILURE opens both relays, and each entry of a write in progress is found old or new (log
entry 3): every item found was in the store or in the write, every item of the store stays or has given its place to one of
the write, an item whose place the write does not name stays, and no place comes to hold two. -/
def Obligations.SupplyFailureOpensRelays : Prop :=
  ∀ s : State, s.powered = true → ∃ t, exec .supplyFailure s = .next t ∧
    t.powered = false ∧ (∀ l, t.lines.get l = { s.lines.get l with output := false }) ∧
    t.mgmt.writes = [] ∧ t.mgmt.key = s.mgmt.key ∧ t.pending = s.pending ∧
    (∀ x ∈ t.mgmt.store, x ∈ s.mgmt.store ∨ ∃ w, s.mgmt.writes.head? = some w ∧ x ∈ w.items) ∧
    (∀ x ∈ s.mgmt.store, ∃ y ∈ t.mgmt.store, storePlace y = storePlace x ∧
      (y = x ∨ ∃ w, s.mgmt.writes.head? = some w ∧ y ∈ w.items)) ∧
    (∀ x ∈ s.mgmt.store, (∀ w, s.mgmt.writes.head? = some w → ∀ y ∈ w.items, storePlace y ≠ storePlace x) →
      x ∈ t.mgmt.store) ∧
    (s.mgmt.store.Pairwise (fun x y => storePlace x < storePlace y) →
      t.mgmt.store.Pairwise fun x y => storePlace x < storePlace y) ∧
    (s.mgmt.writes = [] → t.mgmt = s.mgmt) ∧
    Silent s t ∧ t.regime = s.regime ∧ Within [.lines, .mgmt, .supply] s t

/-- R175, R176, R171, R161, R163: at the end of the wait of an accepted RESTART the bridge behaves as at power-on, its
tables taken from the store, and keeps the log and the counter; that no write is in progress afterwards is the model's
choice (log entry 18), which cuts it as a supply failure does (log entry 3), as are the stored list's entries being its
places (log entry 39) and the onset that the RESTART record makes (log entry 11). -/
def Obligations.RestartKeepsTheLog : Prop :=
  ∀ s : State, s.powered = true → s.mgmt.wait.isSome = true → s.sline.txn = none →
    ∃ t, exec .restartWaitEnd s = .next t ∧
      PoweredOn { s.log with sinceRead := 0 } .restart (cutWrite s) t ∧
      (s.mgmt.writes = [] → t.mgmt.store = s.mgmt.store ∧ t.failures = s.failures) ∧ t.pending = s.pending ∧
      (∀ l, (t.lines.get l).latch =
        ((t.lines.get l).latched && (t.lines.get l).route.getLsbD 8 && decide (t.params.logMark ≤ 1))) ∧ LinesInv t

/-! ### Zone Intake and the regime -/

/-- R5, R9, R10, R12, R23: a DETECT that needs no confirmation, or a second device in PRE-ALARM, puts the zone in ALARM
and the regime in ACTIVE, with every zone of its group in PRE-ALARM. -/
def Obligations.DetectPutsZoneInAlarm : Prop :=
  ∀ (h : Hdr) (d : Device) (seq : Byte) (tail : List Byte) (s : State),
    let z := zoneOf s d
    let x := s.zones.table.get z
    s.powered = true → isolated s d z = false →
    ((x.state = .quiet ∧ effective x = .none) ∨
      (x.state = .preAlarm ∧ effective x ≠ .none ∧ x.first ≠ some d)) →
    ∃ t, exec (.detect h d.panel d.point seq tail) s = .next t ∧ t.regime.state = .active ∧
      t.zones.table.get z = { x with
        state := .alarm, window := none, count := min 255 (x.count + 1)
        first := if x.state = .quiet then some d else x.first
        windowStart := if x.state = .quiet then s.log.stamp else x.windowStart } ∧
      (∀ y ∈ knockers s z, (t.zones.table.get y).state = .alarm) ∧
      (∀ y, y ≠ z → y ∉ knockers s z → t.zones.table.get y = s.zones.table.get y) ∧
      t.zones.map = s.zones.map ∧ t.zones.isolation = s.zones.isolation ∧
      Keeps (.receivers :: .cls :: alarmBlocks) s t

/-- R8: a first DETECT in a QUIET zone with a verification mode, no zone of its group in PRE-ALARM, opens a window. -/
def Obligations.DetectOpensWindow : Prop :=
  ∀ (h : Hdr) (d : Device) (seq : Byte) (tail : List Byte) (s : State),
    let z := zoneOf s d
    let x := s.zones.table.get z
    s.powered = true → isolated s d z = false → x.state = .quiet → effective x ≠ .none → knockers s z = [] →
    ∃ t, exec (.detect h d.panel d.point seq tail) s = .next t ∧ t.regime.state = s.regime.state ∧
      t.zones.table.get z = { x with
        state := .preAlarm, first := some d, windowStart := s.log.stamp, window := some (ticks x.cfg.knock)
        count := min 255 (x.count + 1) } ∧
      (∀ y, y ≠ z → t.zones.table.get y = s.zones.table.get y) ∧
      Keeps (.receivers :: .cls :: alarmBlocks) s t

/-- R14: FAULT sets the zone's FAULT flag, FAULT CLEAR clears it, and NORMAL leaves the zone as it was.  R2, R3: a report
of any of the four kinds from an isolated point logs ISOLATED REPORT, after UNMAPPED REPORT where no entry of the map
covers the point, and leaves every zone as it was; the frame is then offered to the filter list, which may log more: that
Zone Intake acts first is the model's reading (log entry 32). -/
def Obligations.FaultsActOnTheFlagAlone : Prop :=
  (∀ (h : Hdr) (d : Device) (seq : Byte) (tail : List Byte) (s : State),
    let z := zoneOf s d
    let x := s.zones.table.get z
    s.powered = true → isolated s d z = false →
    (∃ t, exec (.fault h d.panel d.point seq tail) s = .next t ∧ t.zones.table.get z = { x with fault := true } ∧
      (∀ y, y ≠ z → t.zones.table.get y = s.zones.table.get y) ∧ t.zones.isolation = s.zones.isolation ∧
      Within [.receivers, .zones, .cls, .lines] s t) ∧
    (∃ t, exec (.faultClear h d.panel d.point seq tail) s = .next t ∧ t.zones.table.get z = { x with fault := false } ∧
      (∀ y, y ≠ z → t.zones.table.get y = s.zones.table.get y) ∧ t.zones.isolation = s.zones.isolation ∧
      Within [.receivers, .zones, .cls, .lines] s t) ∧
    (∃ t, exec (.normal h d.panel d.point seq tail) s = .next t ∧ Within [.receivers, .cls, .lines] s t)) ∧
  (∀ (h : Hdr) (d : Device) (seq : Byte) (tail : List Byte) (s : State),
    s.powered = true → isolated s d (zoneOf s d) = true → ∀ c ∈ alarmFrames h d seq tail,
    ∃ t, exec c.1 s = .next t ∧
      Appends (appendRecord
        (if mapped s d = none then appendRecord s.log .unmappedReport (.point d) (.report c.2 seq) else s.log)
        .isolatedReport (.point d) (.report c.2 seq)) t.log ∧
      t.port.queue = s.port.queue ∧ Within [.receivers, .cls, .lines] s t)

/-- R24, R25, R54, R81: a REGIME RESET of the main panel in ACTIVE takes the regime to RESTORING; one of another source
logs RESET REFUSED with that source and changes nothing, in every regime state. -/
def Obligations.RegimeResetRestores : Prop :=
  (∀ (h : Hdr) (payload : List Byte) (s : State),
    s.powered = true → toBridge s h.dst = true → h.src = s.addrs.mainPanel → s.regime.state = .active →
    ∃ t, exec (.regimeReset h payload) s = .next t ∧ t.regime.state = .restoring ∧ t.regime.relockDone = false ∧
      (∀ z, (t.zones.table.get z).state = .quiet ∧ (t.zones.table.get z).fault = (s.zones.table.get z).fault) ∧
      (∀ e ∈ t.zones.isolation, e.active = true) ∧
      t.zones.isolation.map (·.scope) = s.zones.isolation.map (·.scope) ∧
      (∀ f, inUse s f = true → (t.seq.floors.get f).state = .normal) ∧
      (∀ st, (t.seq.stairs.get st).loads = [] ∧ (t.seq.stairs.get st).committed = 0 ∧
        (t.seq.stairs.get st).inService = true) ∧
      t.seq.state = .idle ∧ t.doors.relock = some (ticks s.params.relockTime) ∧ t.doors.points = s.doors.points ∧
      Keeps [.receivers, .zones, .mgmt, .seq, .doors, .ann, .allClear, .relock, .early, .lines] s t) ∧
  (∀ (h : Hdr) (payload : List Byte) (s : State),
    s.powered = true → toBridge s h.dst = true → h.src ≠ s.addrs.mainPanel →
    ∃ t, exec (.regimeReset h payload) s = .next t ∧
      t.log = appendRecord s.log .resetRefused .none (.source h.src) ∧ t.port.queue = s.port.queue ∧
      t.regime = s.regime ∧ Within [.receivers, .lines] s t)

/-- R13: a window that expires in PRE-ALARM takes the zone to QUIET. -/
def Obligations.WindowExpiryQuietsZone : Prop :=
  ∀ (z : Fin 256) (s : State),
    let x := s.zones.table.get z
    s.powered = true → x.state = .preAlarm → x.window.isSome = true →
    ∃ t, exec (.zoneWindowExpiry z) s = .next t ∧ t.regime.state = s.regime.state ∧
      (let y := t.zones.table.get z
       y.state = .quiet ∧ y.first = none ∧ y.window = none ∧ y.windowStart = x.windowStart ∧ y.count = x.count ∧
         y.fault = x.fault ∧ y.cfg = x.cfg) ∧
      (∀ y, y ≠ z → (t.zones.table.get y).state = (s.zones.table.get y).state ∧
        (t.zones.table.get y).first = (s.zones.table.get y).first) ∧
      t.zones.map = s.zones.map ∧ Keeps alarmBlocks s t

/-! ### Brigade commands -/

/-- R49. -/
def Obligations.PhaseHoldStopsTheTimer : Prop :=
  ∀ (h : Hdr) (tail : List Byte) (s : State), BrigadeOpen h s →
    ∃ t, exec (.phaseHold h tail) s = .next t ∧ Within [.receivers, .seq, .lines] s t ∧
      (s.seq.state = .running →
        t.seq = { s.seq with state := .held, phase := { s.seq.phase with running := false } } ∧
        Answered h.src (some 0) .accepted s t) ∧
      (s.seq.state ≠ .running → t.seq = s.seq ∧ Answered h.src (some 0) .noChange s t)

/-- R51. -/
def Obligations.PhaseRunStartsFullInterval : Prop :=
  ∀ (h : Hdr) (tail : List Byte) (s : State), BrigadeOpen h s →
    ∃ t, exec (.phaseRun h tail) s = .next t ∧ Within [.receivers, .seq, .lines] s t ∧
      (s.seq.state = .held →
        t.seq = { s.seq with
          state := .running, phase := { left := ticks s.params.phaseInterval, running := true } } ∧
        Answered h.src (some 2) .accepted s t) ∧
      (s.seq.state ≠ .held → t.seq = s.seq ∧ Answered h.src (some 2) .noChange s t)

/-- R44, R50: PHASE STEP in HELD or RUNNING and the expiry of the phase timer make one phase evaluation; in RUNNING the
timer then starts again at the full interval unless the plan is complete. -/
def Obligations.StepAndExpiryEvaluateOnce : Prop :=
  (∀ (h : Hdr) (tail : List Byte) (s : State), BrigadeOpen h s → s.seq.state = .held →
    let e := phaseEvaluation (setRx .p .hunt (beginEvent s))
    ∃ t, exec (.phaseStep h tail) s = .next t ∧ t.seq = e.seq ∧
      (t.seq.state = .held ∨ t.seq.state = .complete) ∧
      Within [.receivers, .seq, .doors, .ann, .allClear, .early, .lines] s t) ∧
  (∀ (h : Hdr) (tail : List Byte) (s : State), BrigadeOpen h s → s.seq.state = .running →
    let e := phaseEvaluation (setRx .p .hunt (beginEvent s))
    ∃ t, exec (.phaseStep h tail) s = .next t ∧
      (e.seq.state = .complete → t.seq = e.seq) ∧
      (e.seq.state ≠ .complete →
        t.seq = { e.seq with phase := { left := ticks s.params.phaseInterval, running := true } }) ∧
      Within [.receivers, .seq, .doors, .ann, .allClear, .early, .lines] s t) ∧
  (∀ s : State, s.powered = true → s.seq.state = .running → s.seq.phase.running = true →
    let e := phaseEvaluation (beginEvent s)
    ∃ t, exec .phaseTimerExpiry s = .next t ∧
      (e.seq.state = .complete → t.seq = e.seq) ∧
      (e.seq.state ≠ .complete →
        t.seq = { e.seq with phase := { left := ticks s.params.phaseInterval, running := true } }) ∧
      Within [.seq, .doors, .ann, .allClear, .early, .lines] s t)

/-- R52: GENERAL EVACUATE takes every floor that is, or at the regime entry becomes, ALERT to EVACUATE, completes the
plan, and makes the regime ACTIVE. -/
def Obligations.GeneralEvacuatePromotesAll : Prop :=
  ∀ (h : Hdr) (tail : List Byte) (s : State), BrigadeOpen h s →
    ∃ t, exec (.generalEvacuate h tail) s = .next t ∧ t.regime.state = .active ∧
      t.seq.state = .complete ∧ t.seq.phase = { left := 0, running := false } ∧
      (∀ f, inUse s f = true → (s.seq.floors.get f).state = .alert →
        (t.seq.floors.get f).state = .evacuate) ∧
      (s.regime.state ≠ .active → ∀ f, inUse s f = true → (t.seq.floors.get f).state = .evacuate) ∧
      (s.regime.state = .active → ∀ f, (s.seq.floors.get f).state ≠ .alert ∨ inUse s f = false →
        t.seq.floors.get f = s.seq.floors.get f) ∧
      Keeps [.receivers, .mgmt, .seq, .lifts, .doors, .ann, .allClear, .early, .lines] s t

/-- R110: LIVE TALK START with no job in the table makes the live talk in slot 0, and CH0 takes it. -/
def Obligations.LiveTalkTakesChannelZero : Prop :=
  ∀ (h : Hdr) (floors : FloorSet) (tail : List Byte) (s : State), BrigadeOpen h s →
    (∀ j, s.ann.jobs.get j = none) → (∀ k, (s.ann.channels.get k).job = none) → floors &&& served s ≠ 0 →
    ∃ t, exec (.liveTalkStart h floors tail) s = .next t ∧
      t.ann.jobs.get 0 = some { newJob .liveBrigade .liveBrigade (floors &&& served s) (.times 1) none with
        state := .playing, channel := some 0 } ∧
      (∀ j, j ≠ 0 → t.ann.jobs.get j = none) ∧
      (t.ann.channels.get 0).job = some 0 ∧ (t.ann.channels.get 0).held = floors &&& served s ∧
      (t.ann.channels.get 0).state =
        (if allOn s (floors &&& served s) = true then ChannelState.playing else .warming) ∧
      t.ann.liveLimit = some (ticks 300) ∧
      Within [.receivers, .ann, .allClear, .early, .lines] s t

/-- R111: LIVE TALK END, and the live talk limit, remove the live talk's job and stop the limit; stated of a table that
holds no other job. -/
def Obligations.LiveTalkEnds : Prop :=
  ∀ (j : Fin 16) (x : Job) (s : State), s.ann.jobs.get j = some x → x.cls = .liveBrigade →
    (∀ i, i ≠ j → s.ann.jobs.get i = none) → s.ann.owed = [] →
    (∀ (h : Hdr) (tail : List Byte), BrigadeOpen h s →
      ∃ t, exec (.liveTalkEnd h tail) s = .next t ∧ (∀ i, t.ann.jobs.get i = none) ∧ t.ann.liveLimit = none ∧
        (∀ k, x.channel = some k → (t.ann.channels.get k).state = .idle ∧ (t.ann.channels.get k).job = none) ∧
        Within [.receivers, .ann, .allClear, .early, .lines] s t) ∧
    (s.powered = true →
      ∃ t, exec .liveTalkLimit s = .next t ∧ (∀ i, t.ann.jobs.get i = none) ∧ t.ann.liveLimit = none ∧
        (∀ k, x.channel = some k → (t.ann.channels.get k).state = .idle ∧ (t.ann.channels.get k).job = none) ∧
        Within [.ann, .allClear, .early, .lines] s t)

/-- R72: LIFT RELEASE outside ACTIVE frees every car of the bank that is neither FREE nor LOST, and no other car; in
ACTIVE it is answered REGIME ACTIVE and changes no car. -/
def Obligations.LiftReleaseFreesTheBank : Prop :=
  ∀ (h : Hdr) (bank : Fin 2) (tail : List Byte) (s : State), BrigadeOpen h s →
    (s.regime.state ≠ .active →
      ∃ t, exec (.liftRelease h bank tail) s = .next t ∧
        (∀ i c, s.lifts.cars.get i = some c → c.bank = bank → c.state ≠ .free → c.state ≠ .lost →
          t.lifts.cars.get i = some { c with
            state := .free, target := none, timer := none, compromised := false, before := none }) ∧
        (∀ i c, s.lifts.cars.get i = some c → c.bank ≠ bank ∨ c.state = .free ∨ c.state = .lost →
          t.lifts.cars.get i = some c) ∧
        (∀ i, s.lifts.cars.get i = none → t.lifts.cars.get i = none) ∧
        t.lifts.banks = s.lifts.banks ∧ Within [.receivers, .lifts, .early, .lines] s t) ∧
    (s.regime.state = .active →
      ∃ t, exec (.liftRelease h bank tail) s = .next t ∧ Answered h.src (some 6) .regimeActive s t ∧
        Within [.receivers, .lines] s t)

/-- R48: BRIGADE COMMAND UNKNOWN is answered UNKNOWN and changes no block.  R133: a BRIGADE COMMAND to the bridge from a
source outside the brigade list logs COMMAND REFUSED with its source and the command, and changes no block and queues no
report; the command of an empty payload is logged as 0, the model's choice (log entry 37). -/
def Obligations.UnknownBrigadeCommandAnswered : Prop :=
  (∀ (h : Hdr) (payload : List Byte) (s : State), BrigadeOpen h s →
    ∃ t, exec (.brigadeCommandUnknown h payload) s = .next t ∧ Answered h.src payload.head? .unknown s t ∧
      Within [.receivers, .lines] s t) ∧
  (∀ (h : Hdr) (floors : FloorSet) (bank : Fin 2) (tail payload : List Byte) (s : State),
    s.powered = true → toBridge s h.dst = true → inBrigade s h.src = false →
    ∀ c ∈ (Instr.brigadeCommandUnknown h payload, payload.head?.getD 0) :: brigadeFrames h floors bank tail,
    ∃ t, exec c.1 s = .next t ∧
      t.log = appendRecord s.log .commandRefused (.stationAddress h.src) (.command c.2) ∧
      t.port.queue = s.port.queue ∧ t.regime = s.regime ∧ Within [.receivers, .lines] s t)

/-! ### Turns on the P-line -/

/-- R126, R129: a POLL of the own address grants a turn, which begins with the gap before its first frame (R128), the queue
kept; that a POLL during a turn starts a new one is the model's choice (log entry 22). -/
def Obligations.PollGrantsTurn : Prop :=
  ∀ (h : Hdr) (payload : List Byte) (s : State),
    s.powered = true → h.dst ≠ 0 → h.dst = s.addrs.own →
    ∃ t, exec (.poll h payload) s = .next t ∧
      t.port.silent = false ∧ t.port.timeout = { left := ticks 5, running := false } ∧
      t.port.queue = unmark s.port.queue ∧ t.log = s.log ∧
      t.port.turn = some { master := h.src, sent := 0, frame := none } ∧
      (∀ b, b ∉ [Block.turn, .receivers, .lines] → same b s t) ∧ t.regime = s.regime ∧
      t.sline.mode = s.sline.mode ∧ t.sline.quietTimer = s.sline.quietTimer

/-- R126, R127, R129, R119: a frame of a turn is taken from the head of the queue as it starts, or is TURN END when the
limit has been reached or the queue is empty; when a report frame has been sent its entry leaves the queue and the next gap
begins; when TURN END has been sent the turn is over; the receiver, held while the bridge transmitted, is in HUNT.  That a
frame starts when 10 ms have passed, or as its sending is reported, is the model's choice (log entry 12), and so is a turn
whose queue was empty at the POLL taking an entry queued in the gap (log entry 55). -/
def Obligations.SentFrameAdvancesTurn : Prop :=
  (∀ (m : Byte) (n : Nat) (s : State), s.powered = true → s.port.turn = some { master := m, sent := n, frame := none } →
    let left := s.port.queue.length
    let closing := TurnFrame.turnEnd left (decide (s.params.queueMark ≤ left))
    (s.pending = [] → due s = none → ∃ t, step s = .next t ∧ t.port.line.rx = .hunt ∧
      (n < s.params.framesPerTurn → ∀ e rest, s.port.queue = e :: rest →
        t.port.turn = some { master := m, sent := n, frame := some (.report e) } ∧
        t.port.queue = { e with sending := true } :: rest) ∧
      (s.params.framesPerTurn ≤ n ∨ s.port.queue = [] →
        t.port.turn = some { master := m, sent := n, frame := some closing } ∧ t.port.queue = s.port.queue)) ∧
    (∃ t, exec .turnFrameSent s = .next t ∧ t.log = s.log ∧ t.port.line = { s.port.line with rx := .hunt } ∧
      t.port.silent = s.port.silent ∧
      (n < s.params.framesPerTurn → ∀ e rest, s.port.queue = e :: rest →
        t.port.turn = some { master := m, sent := n + 1, frame := none } ∧
        t.port.queue = rest.filter fun x => !x.sending) ∧
      (s.params.framesPerTurn ≤ n ∨ s.port.queue = [] → t.port.turn = none ∧ t.port.queue = s.port.queue ∧
        t.port.timeout = { left := ticks 5, running := decide (s.port.queue ≠ []) }) ∧
      (∀ b, b ∉ [Block.turn, .receivers, .lines] → same b s t) ∧ t.regime = s.regime)) ∧
  (∀ (m : Byte) (n : Nat) (e : QEntry) (s : State), s.powered = true →
    s.port.turn = some { master := m, sent := n, frame := some (.report e) } →
    ∃ t, exec .turnFrameSent s = .next t ∧ t.port.queue = (s.port.queue.filter fun x => !x.sending) ∧ t.log = s.log ∧
      t.port.turn = some { master := m, sent := n + 1, frame := none } ∧
      t.port.line = { s.port.line with rx := .hunt } ∧ t.sline.line = s.sline.line ∧
      t.port.silent = s.port.silent ∧ (∀ b, b ∉ [Block.turn, .receivers, .lines] → same b s t) ∧ t.regime = s.regime) ∧
  (∀ (m : Byte) (n k : Nat) (u : Bool) (s : State), s.powered = true →
    s.port.turn = some { master := m, sent := n, frame := some (.turnEnd k u) } →
    ∃ t, exec .turnFrameSent s = .next t ∧ t.port.turn = none ∧ t.port.queue = s.port.queue ∧ t.log = s.log ∧
      t.port.timeout = { left := ticks 5, running := decide (s.port.queue ≠ []) } ∧
      t.port.line = { s.port.line with rx := .hunt } ∧ t.sline.line = s.sline.line ∧
      t.port.silent = s.port.silent ∧ (∀ b, b ∉ [Block.turn, .receivers, .lines] → same b s t) ∧ t.regime = s.regime)

/-- R128, R129, R119: another station heard in a gap, by whichever command its character comes, abandons the turn and every
entry stays in its place; a frame that has started is sent whole; and a turn timeout that reaches 0 sets P SILENT. -/
def Obligations.AbandonedTurnAndTimeout : Prop :=
  (∀ (c : Heard) (i : Instr) (u : Turn) (s : State), s.powered = true → s.port.turn = some u → u.frame = none →
    (i = .turnAbandoned c ∨ (∃ b, i = .frameBegun .p b ∧ c = .good b ∧ s.port.line.rx = .ready) ∨
      (i = .brokenCharacter .p ∧ c = .broken) ∨ (i = .characterInHunt .p ∧ s.port.line.rx = .hunt)) →
    ∃ t, exec i s = .next t ∧ t.port.turn = none ∧ t.port.queue = unmark s.port.queue ∧
      t.port.timeout = { left := ticks 5, running := decide (s.port.queue ≠ []) } ∧ t.log = s.log ∧
      t.port.line.rx = hear s.port.line.rx c ∧ t.port.silent = s.port.silent ∧
      (∀ b, b ∉ [Block.turn, .receivers, .lines] → same b s t) ∧ t.regime = s.regime) ∧
  (∀ (c : Heard) (u : Turn) (s : State), s.powered = true → s.port.turn = some u → u.frame ≠ none →
    ∃ t, exec (.turnAbandoned c) s = .next t ∧ t.port = s.port ∧ Silent s t ∧ Within [.lines] s t) ∧
  (∀ s : State, s.powered = true → s.port.timeout.running = true →
    ∃ t, exec .turnTimeout s = .next t ∧ t.port.silent = true ∧ t.port.timeout = { left := 0, running := false } ∧
      t.port.turn = s.port.turn ∧ Silent s t ∧ (∀ b, b ∉ [Block.turn, .lines] → same b s t) ∧ t.regime = s.regime)

/-! ### Management -/

/-- R31, R169, R170, R171: LOAD TABLE of one stair entry in QUIESCENT: the entry is applied, clamped, the load logged,
and the entry goes to the store; an entry refused, by its index or its release mode, is answered BAD ENTRY with its index,
and changes nothing when it is the first; the entry before it stays applied, logged and on its way to the store.  Outside
QUIESCENT no load of any table changes anything, and a stair entry is answered REFUSED REGIME.  The table's code 3 and the
bytes of the entry are the model's choice (log entry 15), and so is the entry going to the store as the frame carried it,
before clamping (log entry 35). -/
def Obligations.LoadAppliesStairEntry : Prop :=
  (∀ (h : Hdr) (key : BitVec 32) (st : Fin 4) (capacity window mode : Byte) (s : State),
    ManageOpen h key s → s.regime.state = .quiescent → mode.toNat ≤ 1 →
    let w := max 1 (min 15 window.toNat)
    ∃ t, exec (.loadTable h key [3, BitVec.ofNat 8 st.val, 1, capacity, window, mode]) s = .next t ∧
      t.seq.stairs.get st = { s.seq.stairs.get st with
        capacity := capacity.toNat, window := w, mode := if mode = 0 then .all else .follow
        budget := capacity.toNat * w } ∧
      (∀ x, x ≠ st → t.seq.stairs.get x = s.seq.stairs.get x) ∧ t.seq.floors = s.seq.floors ∧
      t.seq.state = s.seq.state ∧
      t.log = appendRecord s.log .tableLoaded (.table .stairTable) (.loaded st.val 1) ∧
      t.mgmt = { s.mgmt with writes :=
        [{ items := [.entry .stairTable st.val (.stair capacity.toNat window.toNat mode.toNat)]
           reply := some (h.src, 0, .done, 0) }] } ∧
      t.port.queue = s.port.queue ∧
      Within [.receivers, .seq, .mgmt, .early, .lines] s t) ∧
  (∀ (h : Hdr) (key : BitVec 32) (start capacity window mode : Byte) (s : State),
    ManageOpen h key s → s.regime.state = .quiescent → 4 ≤ start.toNat ∨ 2 ≤ mode.toNat →
    ∃ t, exec (.loadTable h key [3, start, 1, capacity, window, mode]) s = .next t ∧
      Offered h.src 3 (.manageReply 0 .badEntry start.toNat []) s t ∧ Within [.receivers, .lines] s t) ∧
  (∀ (h : Hdr) (key : BitVec 32) (st : Fin 4) (capacity window mode capacity' window' mode' : Byte) (s : State),
    ManageOpen h key s → s.regime.state = .quiescent → mode.toNat ≤ 1 → st = 3 ∨ 2 ≤ mode'.toNat →
    let w := max 1 (min 15 window.toNat)
    ∃ t, exec (.loadTable h key
          [3, BitVec.ofNat 8 st.val, 2, capacity, window, mode, capacity', window', mode']) s = .next t ∧
      t.seq.stairs.get st = { s.seq.stairs.get st with
        capacity := capacity.toNat, window := w, mode := if mode = 0 then .all else .follow
        budget := capacity.toNat * w } ∧
      (∀ x, x ≠ st → t.seq.stairs.get x = s.seq.stairs.get x) ∧ t.seq.floors = s.seq.floors ∧
      t.seq.state = s.seq.state ∧
      t.log = appendRecord s.log .tableLoaded (.table .stairTable) (.loaded st.val 1) ∧
      t.mgmt = { s.mgmt with writes :=
        [{ items := [.entry .stairTable st.val (.stair capacity.toNat window.toNat mode.toNat)]
           reply := some (h.src, 0, .badEntry, st.val + 1) }] } ∧
      t.port.queue = s.port.queue ∧ Within [.receivers, .seq, .mgmt, .early, .lines] s t) ∧
  (∀ (h : Hdr) (key : BitVec 32) (params : List Byte) (s : State),
    ManageOpen h key s → s.regime.state ≠ .quiescent →
    ∃ t r, exec (.loadTable h key params) s = .next t ∧
      r ∈ [Reply.badTable, .badCount, .refusedRegime] ∧ Offered h.src 3 (.manageReply 0 r 0 []) s t ∧
      Within [.receivers, .lines] s t ∧
      (∀ start capacity window mode, params = [3, start, 1, capacity, window, mode] → r = .refusedRegime))

/-- R172, R173: READ TABLE of one record returns the entry that its configuration makes, with its message row for a floor
(R28), and READ RECORD of the regime its state, its flags, the sequencer state, the phase remainder and the plan clock;
neither changes anything.  The codes of tables, targets and flags, the record count, the place of the message row and the
four bytes of the plan clock are the model's choices (log entries 7, 8, 15, 17 and 30). -/
def Obligations.ReadsReturnRecords : Prop :=
  ∀ (h : Hdr) (key : BitVec 32) (s : State), ManageOpen h key s →
    (∀ (tb : TableId) (i : Byte), (tableRange tb).1 ≤ i.toNat → i.toNat ≤ (tableRange tb).2 →
      ∃ t, exec (.readTable h key [BitVec.ofNat 8 tb.ctorIdx, i, 1]) s = .next t ∧
        Offered h.src 3 (.manageReply 1 .done 0 (1 :: (entryBytes i.toNat (configEntry s tb i.toNat) ++
          if tb = .floorTable then entryBytes i.toNat (configEntry s .messageRows i.toNat) else []))) s t ∧
        Within [.receivers, .lines] s t) ∧
    (∃ t, exec (.readRecord h key [3]) s = .next t ∧
      Offered h.src 3 (.manageReply 2 .done 0
        ([BitVec.ofNat 8 s.regime.state.ctorIdx, if s.regime.allClearDone then 1 else 0,
          if s.regime.relockDone then 1 else 0, BitVec.ofNat 8 s.seq.state.ctorIdx] ++
          be 2 (seconds s.seq.phase.left) ++ be 4 s.seq.planClock)) s t ∧
      Within [.receivers, .lines] s t)

/-- R162, R163: READ LOG answered DONE sets the watermark count to 0 and leaves the records as they are; the counts its frames
carry are laid out by the model's choice (log entry 30). -/
def Obligations.ReadLogClearsTheCount : Prop :=
  ∀ (h : Hdr) (key : BitVec 32) (hi lo count : Byte) (s : State), ManageOpen h key s →
    1 ≤ count.toNat → count.toNat ≤ 8 → s.port.queue.length + 2 ≤ 32 →
    ∃ t, exec (.readLog h key [hi, lo, count]) s = .next t ∧ t.log = { s.log with sinceRead := 0 } ∧
      t.port.queue =
        (replyData h.src 3 (logFrames s.log (BitVec.ofNat 16 (hi.toNat * 256 + lo.toNat)) count.toNat) s).port.queue ∧
      t.regime = s.regime ∧ (∀ b, b ∉ [Block.receivers, .lines] → same b s t)

/-- R141: READ CAPTURE answers with the slot's content and empties it; a slot above 3 is answered BAD ENTRY.  The byte
that marks a slot empty or full and the slot as the index of the BAD ENTRY are the model's choices (log entries 15 and
58). -/
def Obligations.ReadCaptureEmptiesTheSlot : Prop :=
  ∀ (h : Hdr) (key : BitVec 32) (s : State), ManageOpen h key s →
    (∀ k : Fin 4, ∃ t, exec (.readCapture h key [BitVec.ofNat 8 k.val]) s = .next t ∧
      t.cls.slots.get k = none ∧ (∀ j, j ≠ k → t.cls.slots.get j = s.cls.slots.get j) ∧
      t.cls.queue = s.cls.queue ∧ t.cls.filter = s.cls.filter ∧
      t.port.queue = (replyData h.src 4 (runOn (match s.cls.slots.get k with
        | none => [0]
        | some c => 1 :: (c.bytes ++ be 4 c.stamp.toNat ++ [BitVec.ofNat 8 c.element.val]))) s).port.queue ∧
      Within [.receivers, .cls, .lines] s t) ∧
    (∀ k : Byte, 4 ≤ k.toNat → ∃ t, exec (.readCapture h key [k]) s = .next t ∧
      Offered h.src 3 (.manageReply 4 .badEntry k.toNat []) s t ∧ Within [.receivers, .lines] s t)

/-- R16, R18, R20: ISOLATE of a new scope appends an entry, ACTIVE when every zone it touches is QUIET and PENDING
otherwise; DE-ISOLATE removes the entry of its scope; the whole list is written, and the reply waits for the store write.
That the write carries the list place by place is the model's reading (log entry 39). -/
def Obligations.IsolationListChanges : Prop :=
  ∀ (h : Hdr) (key : BitVec 32) (params : List Byte) (c : Scope) (s : State), ManageOpen h key s →
    (parseScope params).bind checkScope = some c →
    (holdsScope s c = false → s.zones.isolation.length < 64 →
      ∃ t, exec (.isolate h key params) s = .next t ∧
        t.zones.isolation = s.zones.isolation ++ [{ scope := c, active := allQuiet s c }] ∧
        (∀ z, t.zones.table.get z = { s.zones.table.get z with
          isolated := (s.zones.table.get z).isolated || decide (c = .zone z ∧ allQuiet s c = true) }) ∧
        t.mgmt = { s.mgmt with writes :=
          [{ items := (List.finRange 64).map fun i =>
               .isolation i ((s.zones.isolation.map (·.scope) ++ [c])[i.val]?)
             reply := some (h.src, 5, .done, 0) }] } ∧
        Silent s t ∧ Within [.receivers, .zones, .mgmt, .lines] s t) ∧
    (holdsScope s c = true →
      ∃ t, exec (.deIsolate h key params) s = .next t ∧
        t.zones.isolation = s.zones.isolation.filter (fun e => e.scope != c) ∧
        (∀ z, t.zones.table.get z = { s.zones.table.get z with
          isolated := (s.zones.table.get z).isolated && decide (c ≠ .zone z) }) ∧
        t.mgmt = { s.mgmt with writes :=
          [{ items := (List.finRange 64).map fun i =>
               .isolation i (((s.zones.isolation.filter fun e => e.scope != c).map (·.scope))[i.val]?)
             reply := some (h.src, 6, .done, 0) }] } ∧
        Within [.receivers, .zones, .mgmt, .lines] s t)

/-- R97: RACK STANDBY NOW, with no job waiting for floors, turns an idle fitted rack off and polls its station early. -/
def Obligations.RackStandbyTurnsRackOff : Prop :=
  ∀ (h : Hdr) (key : BitVec 32) (r : Fin 4) (s : State),
    let x := s.ann.racks.get r
    ManageOpen h key s → s.regime.state = .quiescent → x.address ≠ 0 → stationLost s x.address = false →
    rackHeld s r = false → (∀ j y, s.ann.jobs.get j = some y → y.state ≠ .waiting) →
    ∃ t, exec (.rackStandbyNow h key [BitVec.ofNat 8 r.val]) s = .next t ∧
      t.ann.racks.get r = { x with commanded := .standby, power := .standby } ∧
      (∀ q, q ≠ r → t.ann.racks.get q = s.ann.racks.get q) ∧
      t.ann.jobs = s.ann.jobs ∧ t.ann.channels = s.ann.channels ∧
      (∀ i, stationAt s x.address = some i → i ∈ t.sline.early) ∧
      Within [.receivers, .ann, .allClear, .early, .lines] s t

/-- R95, R97: RACK COUNTDOWN stores its code, clamped, with the countdown at full; a countdown that reaches 0 turns the
rack off. -/
def Obligations.CountdownTurnsRackOff : Prop :=
  (∀ (h : Hdr) (key : BitVec 32) (r : Fin 4) (code : Byte) (s : State), ManageOpen h key s →
    let c := min 100 code.toNat
    ∃ t, exec (.rackCountdown h key [BitVec.ofNat 8 r.val, code]) s = .next t ∧
      t.ann = { s.ann with
        racks := s.ann.racks.set r { s.ann.racks.get r with
          code := c, countdown := if c ≤ 60 then ticks (c * 10) else ticks ((c - 50) * 60) } } ∧
      t.mgmt = { s.mgmt with writes := [{ items := [.code r c], reply := some (h.src, 8, .done, 0) }] } ∧
      Silent s t ∧ Within [.receivers, .ann, .mgmt, .lines, .early] s t) ∧
  (∀ (r : Fin 4) (s : State), s.powered = true → countdownRuns s r = true →
    ∃ t, exec (.countdownExpiry r) s = .next t ∧
      t.ann = { s.ann with
        racks := s.ann.racks.set r { s.ann.racks.get r with
          commanded := .standby, power := .standby, countdown := 0 } } ∧
      Silent s t ∧ Within [.ann, .early, .lines] s t)

/-- R88: TEST DOOR in QUIESCENT releases the point and starts its test timer, clamped to 5 to 120 s. -/
def Obligations.TestDoorReleasesThePoint : Prop :=
  ∀ (h : Hdr) (key : BitVec 32) (i : Fin 128) (duration : Byte) (p : DoorPoint) (s : State),
    ManageOpen h key s → s.regime.state = .quiescent → s.doors.points.get i = some p →
    ∃ t q, exec (.testDoor h key [BitVec.ofNat 8 i.val, duration]) s = .next t ∧
      t.doors.points.get i = some q ∧ q.commanded = .released ∧
      q.test = some (ticks (max 5 (min 120 duration.toNat))) ∧ q.pending = false ∧ q.supervision ≠ .heldOpen ∧
      q.controller = p.controller ∧ q.output = p.output ∧ q.floor = p.floor ∧ q.stair = p.stair ∧
      q.feedback = p.feedback ∧
      (∀ j, j ≠ i → t.doors.points.get j = s.doors.points.get j) ∧ t.doors.relock = s.doors.relock ∧
      Within [.receivers, .doors, .early, .lines] s t

/-- R166: ACKNOWLEDGE LINES clears the latch of a LATCHED line, whose output then follows its routed conditions alone; a
LEVEL line follows its conditions as before; the answer is DONE and nothing is logged while the queue has room. -/
def Obligations.AcknowledgeClearsLatches : Prop :=
  ∀ (h : Hdr) (key : BitVec 32) (params : List Byte) (s : State), ManageOpen h key s → s.port.queue.length < 32 →
    ∃ t, exec (.acknowledgeLines h key params) s = .next t ∧
      (∀ l, (s.lines.get l).latched = true → t.lines.get l =
        { s.lines.get l with latch := false, output := anyHolds s (s.lines.get l) }) ∧
      (∀ l, (s.lines.get l).latched = false → (s.lines.get l).latch = false → t.lines.get l =
        { s.lines.get l with output := anyHolds s (s.lines.get l) }) ∧
      t.log = s.log ∧ Offered h.src 3 (.manageReply 10 .done 0 []) s t ∧ Within [.receivers, .lines] s t

/-- R168, R174, R175: SET KEY replaces the key at once and answers when it is stored; RESTART in QUIESCENT is answered
DONE and starts the wait of 2 s; a subcode that names nothing is answered UNKNOWN; a payload of fewer than 5 bytes is set
aside.  A MANAGE frame to the bridge of any subcode is answered BUSY while a store write or the wait of a RESTART is in
progress, and REFUSED KEY otherwise when its key is wrong, and changes nothing else. -/
def Obligations.KeyRestartAndUnknownSubcodes : Prop :=
  (∀ (h : Hdr) (key new : BitVec 32) (s : State), ManageOpen h key s →
    ∃ t, exec (.setKey h key (be 4 new.toNat)) s = .next t ∧
      t.mgmt = { s.mgmt with
        key := new, writes := [{ items := [.key new], reply := some (h.src, 11, .done, 0) }] } ∧
      Silent s t ∧ Within [.receivers, .mgmt, .lines] s t) ∧
  (∀ (h : Hdr) (key : BitVec 32) (params : List Byte) (s : State), ManageOpen h key s → s.regime.state = .quiescent →
    ∃ t, exec (.restart h key params) s = .next t ∧ t.mgmt = { s.mgmt with wait := some (ticks 2) } ∧
      Offered h.src 3 (.manageReply 12 .done 0 []) s t ∧ Within [.receivers, .mgmt, .lines] s t) ∧
  (∀ (h : Hdr) (key : BitVec 32) (sub : Byte) (params : List Byte) (s : State), ManageOpen h key s →
    ∃ t, exec (.manageUnknownSubcode h key sub params) s = .next t ∧
      Offered h.src 3 (.manageReply sub .unknown 0 []) s t ∧ Within [.receivers, .lines] s t) ∧
  (∀ (h : Hdr) (payload : List Byte) (s : State), s.powered = true → toBridge s h.dst = true →
    ∃ t, exec (.manageSetAside h payload) s = .next t ∧ Silent s t ∧ Within [.receivers, .lines] s t) ∧
  (∀ (h : Hdr) (key : BitVec 32) (sub : Byte) (params : List Byte) (s : State),
    s.powered = true → toBridge s h.dst = true →
    ∀ c ∈ (Instr.manageUnknownSubcode h key sub params, sub) :: manageFrames h key params,
    (s.mgmt.writes ≠ [] ∨ s.mgmt.wait.isSome = true →
      ∃ t, exec c.1 s = .next t ∧ Offered h.src 3 (.manageReply c.2 .busy 0 []) s t ∧ t.regime = s.regime ∧
        Within [.receivers, .lines] s t) ∧
    (s.mgmt.writes = [] → s.mgmt.wait = none → key ≠ s.mgmt.key →
      ∃ t, exec c.1 s = .next t ∧ Offered h.src 3 (.manageReply c.2 .refusedKey 0 []) s t ∧ t.regime = s.regime ∧
        Within [.receivers, .lines] s t))

/-! ### The Frame Classifier -/

/-- R134, R137 to R139, R142: a SERVICE REQUEST is placed in the S forward queue when no element matches and the default
action is FORWARD, when the matching element says FORWARD or FORWARD AND LOG, the frame then logged, and when it says GATED
FORWARD in QUIESCENT; outside QUIESCENT GATED DROP is logged in its place, and DROP leaves the queue as it is. -/
def Obligations.ServiceRequestForwarded : Prop :=
  ∀ (h : Hdr) (payload : List Byte) (s : State),
    let f := frameWith h kindServiceRequest payload
    let placed := { s.cls with
      queue := placeForward { frame := f, arrival := s.log.stamp, onLine := false, late := false } s.cls.queue }
    s.powered = true → h.dst ≠ 0 → s.cls.queue.length < 16 → s.mgmt.wait = none →
    (matching s f = none → s.params.defaultForward = true →
      ∃ t, exec (.serviceRequest h payload) s = .next t ∧ t.cls = placed ∧
        Silent s t ∧ Within [.receivers, .cls, .lines] s t) ∧
    (matching s f = none → s.params.defaultForward = false →
      ∃ t, exec (.serviceRequest h payload) s = .next t ∧ Silent s t ∧ Within [.receivers, .lines] s t) ∧
    (∀ e, matching s f = some e →
      ((s.cls.filter.get e).action = .forward →
        ∃ t, exec (.serviceRequest h payload) s = .next t ∧ t.cls = placed ∧
          Silent s t ∧ Within [.receivers, .cls, .lines] s t) ∧
      ((s.cls.filter.get e).action = .forwardAndLog →
        ∃ t, exec (.serviceRequest h payload) s = .next t ∧ t.cls = placed ∧
          t.log = appendRecord s.log .frameLogged (.filterElement e) (.sourceKind h.src kindServiceRequest) ∧
          t.port.queue = s.port.queue ∧ Within [.receivers, .cls, .lines] s t) ∧
      ((s.cls.filter.get e).action = .gatedForward → s.regime.state = .quiescent →
        ∃ t, exec (.serviceRequest h payload) s = .next t ∧ t.cls = placed ∧
          Silent s t ∧ Within [.receivers, .cls, .lines] s t) ∧
      ((s.cls.filter.get e).action = .gatedForward → s.regime.state ≠ .quiescent →
        ∃ t, exec (.serviceRequest h payload) s = .next t ∧
          t.log = appendRecord s.log .gatedDrop (.filterElement e) (.sourceDest h.src h.dst) ∧
          t.port.queue = s.port.queue ∧ Within [.receivers, .lines] s t) ∧
      ((s.cls.filter.get e).action = .drop →
        ∃ t, exec (.serviceRequest h payload) s = .next t ∧ Silent s t ∧ Within [.receivers, .lines] s t))

/-- R132, R134, R137, R140: a frame that the fixed path does not take, and an ALARM REPORT that Zone Intake discards,
are captured by an element that names an empty slot. -/
def Obligations.FramesCaptured : Prop :=
  ∀ (h : Hdr) (payload : List Byte) (e : Fin 32) (k : Fin 4) (s : State), s.powered = true →
    (s.cls.filter.get e).action = .capture k →
    (∀ kind : Byte, matching s (frameWith h kind payload) = some e →
      ∃ t, exec (.untakenFrame h kind payload) s = .next t ∧
        t.cls = { s.cls with
          slots := s.cls.slots.set k (some { bytes := frameBytes (frameWith h kind payload), stamp := s.log.stamp, element := e }) } ∧
        Silent s t ∧ Within [.receivers, .cls, .lines] s t) ∧
    (matching s (frameWith h kindAlarmReport payload) = some e →
      ∃ t, exec (.alarmReportDiscarded h payload) s = .next t ∧
        t.cls = { s.cls with
          slots := s.cls.slots.set k (some { bytes := frameBytes (frameWith h kindAlarmReport payload), stamp := s.log.stamp, element := e }) } ∧
        Silent s t ∧ Within [.receivers, .cls, .lines] s t)

/-! ### Receivers -/

/-- R119: the receiver of either line while no turn and no S-line transaction is in progress; the S-line's, held in HUNT
while the bridge transmits, READY in the answer window only after 2 ms of silence; and the P-line's in a turn, READY after
2 ms of silence in a gap, held in HUNT once the frame has started.  That 10 ms start the frame is the model's choice (log
entry 12). -/
def Obligations.ReceiverStates : Prop :=
  (∀ (l : Line) (s : State), s.powered = true → s.sline.txn = none → s.port.turn = none →
    (∃ t, exec (.silence2ms l) s = .next t ∧ (trunk t l).rx = .ready ∧
      Silent s t ∧ Within [.receivers, .lines] s t) ∧
    (∀ bytes, ∃ t, exec (.badFrame l bytes) s = .next t ∧ (trunk t l).rx = .hunt ∧
      Silent s t ∧ Within [.receivers, .lines] s t) ∧
    (∃ t, exec (.brokenCharacter l) s = .next t ∧ (trunk t l).rx = .hunt ∧
      Silent s t ∧ Within [.receivers, .lines] s t) ∧
    (∀ bs, (trunk s l).rx = .inFrame bs →
      ∃ t, exec (.frameLengthAbove64 l) s = .next t ∧ (trunk t l).rx = .hunt ∧
        Silent s t ∧ Within [.receivers, .lines] s t) ∧
    ((trunk s l).rx = .hunt → ∃ t, exec (.characterInHunt l) s = .next t ∧ (trunk t l).rx = .hunt ∧
      Silent s t ∧ Within [.receivers, .lines] s t) ∧
    ((trunk s l).rx = .ready → ∀ b, ∃ t, exec (.frameBegun l b) s = .next t ∧ (trunk t l).rx = .inFrame [b] ∧
      Silent s t ∧ Within [.receivers, .lines] s t)) ∧
  (∀ (x : Txn) (s : State), s.powered = true → s.sline.txn = some x →
    (x.window = none → x.candidate = false → ∀ b, ∀ c ∈ receiverEvents .s b,
      ∃ t, exec c s = .next t ∧ t.sline.line.rx = .hunt ∧ Silent s t ∧ Within [.receivers, .lines] s t) ∧
    (x.window.isSome = true → s.sline.line.rx = .hunt → ∃ t, exec (.silence2ms .s) s = .next t ∧
      t.sline.line.rx = .ready ∧ Silent s t ∧ Within [.receivers, .lines] s t)) ∧
  (∀ (u : Turn) (s : State), s.powered = true → s.port.turn = some u →
    (u.frame ≠ none → ∀ b, ∀ c ∈ receiverEvents .p b,
      ∃ t, exec c s = .next t ∧ t.port.line.rx = .hunt ∧ Silent s t ∧ Within [.receivers, .lines] s t) ∧
    (u.frame = none → s.port.line.rx = .hunt → ∃ t, exec (.silence2ms .p) s = .next t ∧
      t.port.line.rx = .ready ∧ Silent s t ∧ Within [.receivers, .lines] s t) ∧
    (u.frame = none → s.pending = [] → due s = none → ∃ t, step s = .next t ∧
      (∃ f, t.port.turn = some { u with frame := some f }) ∧ t.port.line.rx = .hunt))

/-! ### The services line -/

/-- R149 to R151, R153: the S-line's next transaction: a forward while the burst limit allows, then the head of the
early-poll list, then the next record of the rotation. -/
def Obligations.NextTransactionChosen : Prop :=
  ∀ s : State, s.powered = true → s.sline.txn = none → s.addrs.own ≠ 0 →
    (∀ i e, firstQueued s = some (i, e) → s.sline.burst < s.params.burstLimit →
      ∃ t, exec .nextTransaction s = .next t ∧
        t.sline.txn = some {
          kind := .forward, dest := e.frame.dst, sent := .forward e.frame, window := none, candidate := false } ∧
        t.sline.burst = s.sline.burst + 1 ∧ t.cls.queue = s.cls.queue.set i { e with onLine := true } ∧
        t.sline.early = s.sline.early ∧ t.sline.pointer = s.sline.pointer ∧
        Silent s t ∧ Within [.txn, .cls, .receivers, .lines] s t) ∧
    (∀ i rest x, firstQueued s = none ∨ s.params.burstLimit ≤ s.sline.burst → s.sline.early = i :: rest →
      s.sline.stations.get i = some x →
      ∃ t, exec .nextTransaction s = .next t ∧
        t.sline.txn = some {
          kind := .poll i, dest := x.address, sent := .poll (pollContent s x), window := none, candidate := false } ∧
        t.sline.burst = 0 ∧ t.sline.early = rest ∧ t.sline.pointer = s.sline.pointer ∧
        Silent s t ∧ Within [.txn, .early, .receivers, .lines] s t) ∧
    (∀ i x, firstQueued s = none ∨ s.params.burstLimit ≤ s.sline.burst → s.sline.early = [] →
      rotationNext s = some i → s.sline.stations.get i = some x →
      ∃ t, exec .nextTransaction s = .next t ∧
        t.sline.txn = some {
          kind := .poll i, dest := x.address, sent := .poll (pollContent s x), window := none, candidate := false } ∧
        t.sline.burst = 0 ∧ t.sline.pointer = some i ∧ t.sline.early = [] ∧
        Silent s t ∧ Within [.txn, .receivers, .lines] s t)

/-- R130, R119, R152: the answer window opens for 20 ms at the end of the bridge's frame, the receiver in HUNT until 2 ms
of silence; the quiet-line timer takes the line to QUIET. -/
def Obligations.WindowOpensAndLineQuiets : Prop :=
  (∀ (x : Txn) (s : State), s.powered = true → s.sline.txn = some x →
    ∃ t, exec .answerWindowOpen s = .next t ∧ t.sline.txn = some { x with window := some 2 } ∧
      t.sline.line.rx = .hunt ∧ t.sline.pointer = s.sline.pointer ∧ t.sline.burst = s.sline.burst ∧
      t.port.line = s.port.line ∧ Silent s t ∧ Within [.txn, .receivers, .lines] s t) ∧
  (∀ s : State, s.powered = true → s.sline.quietTimer.isSome = true →
    ∃ t, exec .quietLineTimerExpiry s = .next t ∧ t.sline.mode = .quiet ∧ t.sline.quietTimer = none ∧
      Silent s t ∧ t.regime = s.regime ∧ t.port = s.port ∧ (∀ b, b ∉ [Block.lines] → same b s t))

/-- R130, R131, R145, R154: the reply of a poll puts its record ONLINE with no answers missed; the answer of a forward is
relayed to the source of the request.  That a record that was ONLINE at another address than the reply's, loaded during the
poll, leaves every LOST car LOST is the model's reading of R154 step 3 and R158 (log entry 48): read alone, R154 step 3
gives the notice when a LOST car names the record's address. -/
def Obligations.RepliesEndTransactions : Prop :=
  (∀ (h : Hdr) (payload : List Byte) (i : Fin 48) (x : Txn) (st : Station) (s : State), s.powered = true →
    s.sline.txn = some x → x.kind = .poll i → h.src = x.dest → s.sline.stations.get i = some st →
    ∃ t, exec (.stationReply h payload) s = .next t ∧ t.sline.txn = none ∧
      t.sline.stations.get i = some { st with lost := false, noAnswer := 0, lastReply := some s.log.stamp } ∧
      (∀ j, j ≠ i → t.sline.stations.get j = s.sline.stations.get j) ∧ t.sline.line.rx = .hunt ∧
      (st.lost = false → st.address ≠ x.dest → ∀ j c, s.lifts.cars.get j = some c → c.state = .lost →
        ∃ d, t.lifts.cars.get j = some d ∧ d.state = .lost) ∧
      Within [.txn, .receivers, .stations, .lifts, .doors, .ann, .allClear, .early, .lines] s t) ∧
  (∀ (h : Hdr) (payload : List Byte) (e : Forward) (x : Txn) (s : State), s.powered = true →
    s.sline.txn = some x → x.kind = .forward → h.src = x.dest → s.cls.queue.find? (·.onLine) = some e →
    ∃ t, exec (.serviceAnswer h payload) s = .next t ∧ t.sline.txn = none ∧
      t.cls = { s.cls with queue := s.cls.queue.filter fun y => !y.onLine } ∧
      Offered e.frame.src 4 (.serviceAnswer e.late (decide (62 < payload.length)) e.frame.dst (payload.take 62)) s t ∧
      Within [.txn, .receivers, .cls, .lines] s t)

/-- R155: a poll whose window closes with no frame begun, or whose candidate is refused, counts one NO ANSWER against its
record: an ONLINE record's third puts it in LOST with its last reply kept, a LOST record stays as it is, and before the
third nothing is logged.  A forward transaction leaves every record as it was, whatever its outcome; and the outcome of a
poll whose record has been taken out of use is discarded (R158). -/
def Obligations.NoAnswersCountAndLose : Prop :=
  (∀ (i : Fin 48) (x : Txn) (st : Station) (c : Instr) (s : State), s.powered = true →
    s.sline.txn = some x → x.kind = .poll i → s.sline.stations.get i = some st →
    (c = .answerWindowClose ∧ x.candidate = false ∨ ∃ cause, c = .rejectedCandidate cause) →
    ∃ t, exec c s = .next t ∧ t.sline.txn = none ∧
      t.sline.stations.get i = some (if st.lost then st else if st.noAnswer < 2 then { st with noAnswer := st.noAnswer + 1 }
        else { st with lost := true, noAnswer := 3 }) ∧
      (∀ j, j ≠ i → t.sline.stations.get j = s.sline.stations.get j) ∧
      (st.lost = true ∨ st.noAnswer < 2 → Silent s t ∧ Within [.txn, .receivers, .stations, .lines] s t) ∧
      Within [.txn, .receivers, .stations, .lifts, .doors, .ann, .allClear, .early, .lines] s t) ∧
  (∀ (x : Txn) (c : Instr) (s : State), s.powered = true → s.sline.txn = some x → x.kind = .forward →
    (c = .answerWindowClose ∧ x.candidate = false ∨ (∃ cause, c = .rejectedCandidate cause) ∨
      ∃ h payload, c = .serviceAnswer h payload) →
    ∃ t, exec c s = .next t ∧ t.sline.txn = none ∧ t.sline.stations = s.sline.stations ∧
      Within [.txn, .receivers, .cls, .lines] s t) ∧
  (∀ (x : Txn) (c : Instr) (s : State), s.powered = true → s.sline.txn = some x → x.kind = .withdrawn →
    (c = .answerWindowClose ∧ x.candidate = false ∨ (∃ cause, c = .rejectedCandidate cause) ∨
      ∃ h payload, c = .stationReply h payload) →
    ∃ t, exec c s = .next t ∧ t.sline.txn = none ∧ Silent s t ∧ Within [.txn, .receivers, .lines] s t)

/-- R144, R146: the lifetime of a QUEUED forward entry removes it, logged and reported; that of an ON LINE entry sets its
late mark. -/
def Obligations.ForwardLifetimeExpires : Prop :=
  ∀ (n : Fin 16) (e : Forward) (s : State), s.powered = true → s.cls.queue[n.val]? = some e →
    (e.onLine = false →
      ∃ t, exec (.forwardLifetimeExpiry n) s = .next t ∧
        t.cls = { s.cls with queue := s.cls.queue.eraseIdx n.val } ∧
        LoggedOffered .forwardExpired (.stationAddress e.frame.dst) (.sourceClass e.frame.src e.frame.cls)
          e.frame.src 4 (.forwardExpired e.frame.dst e.frame.cls e.frame.payload.head?) s t ∧
        Within [.cls, .lines] s t) ∧
    (e.onLine = true →
      ∃ t, exec (.forwardLifetimeExpiry n) s = .next t ∧
        t.cls = { s.cls with queue := s.cls.queue.set n.val { e with late := true } } ∧
        Silent s t ∧ Within [.cls, .lines] s t)

/-! ### Timers -/

/-- R46, R63: a drain takes the first entry from its stair's load list and its share from the committed load; a recall
timer that runs out takes its car to OVERDUE with its target kept. -/
def Obligations.DrainsAndOverdueCars : Prop :=
  (∀ (st : Fin 4) (e : Load) (rest : List Load) (s : State), s.powered = true →
    (s.seq.stairs.get st).loads = e :: rest →
    ∃ t, exec (.drain st) s = .next t ∧
      t.seq = { s.seq with
        stairs := s.seq.stairs.set st { s.seq.stairs.get st with
          loads := rest, committed := (s.seq.stairs.get st).committed - e.share } } ∧
      Silent s t ∧ Within [.seq, .lines] s t) ∧
  (∀ (i : Fin 8) (c : Car) (s : State), s.powered = true → s.lifts.cars.get i = some c → c.state = .recalling →
    ∃ t, exec (.recallTimerExpiry i) s = .next t ∧
      t.lifts = { s.lifts with
        cars := s.lifts.cars.set i (some { c with state := .overdue, timer := none, before := none }) } ∧
      LoggedOffered .carState (.car i) (.car .overdue c.target c.compromised) 0 5
        (.car i c.bank c.index .overdue c.target c.reported c.compromised (s.lifts.banks.get c.bank).choice) s t ∧
      Within [.lifts, .early, .lines] s t)

/-- R85, R89: a mismatch timer that runs out in MISMATCH takes the point to FAULT, logged and reported; a test timer that
runs out in QUIESCENT locks a released point whose door is closed, and leaves it with its relock pending otherwise. -/
def Obligations.MismatchAndTestExpire : Prop :=
  (∀ (i : Fin 128) (p : DoorPoint) (s : State), s.powered = true → s.doors.points.get i = some p →
    p.supervision = .mismatch →
    ∃ t, exec (.mismatchTimerExpiry i) s = .next t ∧
      t.doors = { s.doors with
        points := s.doors.points.set i (some { p with supervision := .fault, mismatch := none }) } ∧
      LoggedOffered .doorFault (.doorPoint i) (.doorFault .feedback p.commanded (p.feedback.map (·.lock))) 0 5
        (.doorPoint i p.controller p.output p.floor p.stair p.commanded p.feedback .fault p.pending p.test.isSome) s t ∧
      Within [.doors, .early, .lines] s t) ∧
  (∀ (i : Fin 128) (p : DoorPoint) (s : State), s.powered = true → s.doors.points.get i = some p →
    p.test.isSome = true → p.commanded = .released → s.regime.state = .quiescent →
    ∃ t q, exec (.testTimerExpiry i) s = .next t ∧ t.doors.points.get i = some q ∧ q.test = none ∧
      (closedNow s p = true → q.commanded = .locked ∧ q.pending = p.pending) ∧
      (closedNow s p = false → q.commanded = .released ∧ q.pending = true ∧ q.mismatch = none ∧
        q.supervision = if p.supervision = .fault then .fault else .heldOpen) ∧
      (∀ j, j ≠ i → t.doors.points.get j = s.doors.points.get j) ∧ t.doors.relock = s.doors.relock ∧
      Within [.doors, .early, .lines] s t)

/-- R82, R27: the relock expiry locks every released point whose controller is not LOST and whose door is closed, leaves
every other released point with its relock pending, sets RELOCK DONE, and ends RESTORING when ALL-CLEAR DONE is set. -/
def Obligations.RelockExpiryLocksClosedDoors : Prop :=
  ∀ s : State, s.powered = true → s.doors.relock.isSome = true → s.regime.relockDone = false →
    ∃ t, exec .relockTimerExpiry s = .next t ∧ t.regime.relockDone = true ∧ t.doors.relock = none ∧
      t.regime.state = (if s.regime.state = .restoring ∧ s.regime.allClearDone = true then Regime.quiescent
        else s.regime.state) ∧
      t.regime.allClearDone = s.regime.allClearDone ∧
      (∀ i, s.doors.points.get i = none → t.doors.points.get i = none) ∧
      (∀ i p, s.doors.points.get i = some p → ∃ q, t.doors.points.get i = some q ∧
        (p.commanded = .locked → q = p) ∧
        (p.commanded = .released → closedNow s p = true → q.commanded = .locked ∧ q.pending = p.pending) ∧
        (p.commanded = .released → closedNow s p = false →
          q.commanded = .released ∧ q.pending = true ∧ q.mismatch = none ∧
          q.supervision = if p.supervision = .fault then .fault else .heldOpen)) ∧
      Within [.doors, .ann, .relock, .early, .lines] s t

/-- R105, R107: a warm-up timer that runs out puts every rack of the held floors that is not ON in FAULT.  The channel's
play begins with the floors that remain; when none remains the channel goes to IDLE, a live talk ends (R111), and any other
job returns to WAITING with its repeats, where it stays if it is of a class that waits and no floor of its target is served
(R109), or is removed if it is an all-clear or a test.  The channel's part is stated of a table that holds no other job. -/
def Obligations.WarmUpExpiryFaultsRacks : Prop :=
  (∀ (k : Fin 2) (s : State), s.powered = true → (s.ann.channels.get k).state = .warming →
    ∃ t, exec (.warmUpTimerExpiry k) s = .next t ∧
      (∀ r ∈ involved s (s.ann.channels.get k).held, (s.ann.racks.get r).power ≠ .on →
        (t.ann.racks.get r).power = .fault) ∧
      (∀ r, (s.ann.racks.get r).power = .on → (t.ann.racks.get r).power = .on) ∧
      Within [.ann, .allClear, .early, .lines] s t) ∧
  (∀ (k : Fin 2) (j : Fin 16) (x : Job) (s : State), s.powered = true →
    let c := s.ann.channels.get k
    let cold := unready s c.held
    c.state = .warming → c.job = some j → s.ann.jobs.get j = some x → x.state = .playing →
    (∀ i, i ≠ j → s.ann.jobs.get i = none) → s.ann.owed = [] →
    (∀ l, l ≠ k → (s.ann.channels.get l).state = .idle ∧ (s.ann.channels.get l).job = none) →
    ∃ t, exec (.warmUpTimerExpiry k) s = .next t ∧ (∀ i, i ≠ j → t.ann.jobs.get i = none) ∧
      (c.held &&& ~~~ cold ≠ 0 →
        t.ann.channels.get k = { c with
          state := .playing, held := c.held &&& ~~~ cold, number := c.number + 1, warm := none, marks := 0
          play := match x.source with
            | .message _ => some (ticks 180)
            | _ => none } ∧
        t.ann.jobs.get j =
          some (if x.cls = .tenant then { x with hold := none, pageLimit := some (ticks 120) } else x)) ∧
      (c.held &&& ~~~ cold = 0 → cold ≠ 0 → x.cls = .liveBrigade →
        t.ann.jobs.get j = none ∧ t.ann.liveLimit = none ∧
        (t.ann.channels.get k).state = .idle ∧ (t.ann.channels.get k).job = none) ∧
      (c.held &&& ~~~ cold = 0 → cold ≠ 0 → x.cls ≠ .liveBrigade → x.target &&& served s &&& ~~~ cold = 0 →
        (t.ann.channels.get k).state = .idle ∧ (t.ann.channels.get k).job = none ∧
        (t.ann.channels.get k).number = c.number ∧
        t.ann.jobs.get j =
          (if x.cls = .allClear ∨ x.cls = .test then none else some { x with state := .waiting, channel := none })))

/-- R108, R109: the play timer ends a message play, whose job, when its repeats are not used up and its class rests, goes
to RESTING; a rest timer makes a standing job WAITING, which it stays with no served floor in its target.  Stated of a
table that holds no other job. -/
def Obligations.PlayAndRestExpire : Prop :=
  (∀ (k : Fin 2) (j : Fin 16) (x : Job) (s : State), s.powered = true →
    (s.ann.channels.get k).state = .playing → (s.ann.channels.get k).play.isSome = true →
    (s.ann.channels.get k).job = some j → s.ann.jobs.get j = some x →
    (∀ i, i ≠ j → s.ann.jobs.get i = none) → x.repeats ≠ .times 0 → x.repeats ≠ .times 1 → restTicks s x.cls ≠ 0 →
    ∃ t, exec (.playTimerExpiry k) s = .next t ∧
      t.ann.jobs.get j = some { x with
        state := .resting, channel := none, lastEnd := some s.log.stamp, rest := some (restTicks s x.cls)
        repeats := match x.repeats with
          | .times n => .times (n - 1)
          | .continuous => .continuous } ∧
      (∀ i, i ≠ j → t.ann.jobs.get i = none) ∧
      (t.ann.channels.get k).state = .idle ∧ (t.ann.channels.get k).job = none ∧
      (t.ann.channels.get k).number = (s.ann.channels.get k).number ∧
      Within [.ann, .allClear, .early, .lines] s t) ∧
  (∀ (j : Fin 16) (x : Job) (s : State), s.powered = true → s.ann.jobs.get j = some x → x.state = .resting →
    (∀ i, i ≠ j → s.ann.jobs.get i = none) → (x.cls = .evacuate ∨ x.cls = .alert) → x.target &&& served s = 0 →
    ∃ t, exec (.restTimerExpiry j) s = .next t ∧
      t.ann.jobs = s.ann.jobs.set j (some { x with state := .waiting, rest := none }) ∧
      t.ann.channels = s.ann.channels ∧ Within [.ann, .allClear, .early, .lines] s t)

/-- R114: the page limit of a GRANTED page, and the hold deadline of one that waits, remove the page's job and show its
console ENDED.  Stated of a table that holds no other job. -/
def Obligations.PagesEnd : Prop :=
  ∀ (j : Fin 16) (x : Job) (e : Fin 16) (n : Tenant) (s : State), s.powered = true → s.ann.jobs.get j = some x →
    x.cls = .tenant → x.source = .liveTenant e → s.ann.tenants.get e = some n →
    (∀ i, i ≠ j → s.ann.jobs.get i = none) → s.ann.owed = [] →
    (x.pageLimit.isSome = true → ∃ t, exec (.pageLimit j) s = .next t ∧ (∀ i, t.ann.jobs.get i = none) ∧
      t.ann.tenants = s.ann.tenants.set e (some { n with status := .ended }) ∧
      Within [.ann, .allClear, .early, .lines] s t) ∧
    (x.hold.isSome = true → ∃ t, exec (.holdDeadline j) s = .next t ∧ (∀ i, t.ann.jobs.get i = none) ∧
      t.ann.tenants = s.ann.tenants.set e (some { n with status := .ended }) ∧
      Within [.ann, .allClear, .early, .lines] s t)

/-- R102, R103: the test period's expiry in QUIESCENT, with no job in the table, both channels IDLE and a floor served,
makes the test job for every floor in use, and CH0 takes it; the period starts again. -/
def Obligations.TestPeriodMakesTestJob : Prop :=
  ∀ s : State, s.powered = true → s.ann.testTimer.isSome = true → s.regime.state = .quiescent →
    s.params.testMessage ≠ 63 → (∀ j, s.ann.jobs.get j = none) → (∀ k, (s.ann.channels.get k).state = .idle ∧ (s.ann.channels.get k).job = none) →
    floorsInUse s &&& served s ≠ 0 →
    ∃ t, exec .testPeriodExpiry s = .next t ∧
      t.ann.jobs.get 0 = some { newJob .test (.message s.params.testMessage) (floorsInUse s) (.times 1) none with
        state := .playing, channel := some 0 } ∧
      (∀ j, j ≠ 0 → t.ann.jobs.get j = none) ∧
      (t.ann.channels.get 0).job = some 0 ∧ (t.ann.channels.get 0).held = floorsInUse s &&& served s ∧
      t.ann.testTimer = (if s.params.testPeriod = 0 then none else some (ticks (s.params.testPeriod * 3600))) ∧
      Within [.ann, .allClear, .early, .lines] s t

/-- R160, R161, R171: the counter's wrap sets it to 0 and logs TIMESTAMP WRAP; the end of a store write puts its entries
in the store and queues the reply that waits for it. -/
def Obligations.WrapAndStoreWriteEnd : Prop :=
  (∀ s : State, s.powered = true →
    ∃ t, exec .timestampWrap s = .next t ∧
      t.log = appendRecord { s.log with stamp := 0 } .timestampWrap .none .zero ∧ t.port = s.port ∧
      t.regime = s.regime ∧ (∀ b, b ∉ [Block.lines] → same b s t)) ∧
  (∀ (w : StoreWrite) (rest : List StoreWrite) (s : State), s.powered = true → s.mgmt.writes = w :: rest →
    ∃ t, exec .storeWriteEnd s = .next t ∧
      t.mgmt = { s.mgmt with store := writeItems w.items s.mgmt.store, writes := rest } ∧
      (∀ x ∈ w.items, (∀ y ∈ w.items, storePlace y = storePlace x → y = x) → x ∈ t.mgmt.store) ∧
      (w.reply = none → Silent s t) ∧
      (∀ dst sub r index, w.reply = some (dst, sub, r, index) → Offered dst 3 (.manageReply sub r index []) s t) ∧
      Within [.mgmt, .lines] s t)
end

