-- ==== Sys2Proof/Laws/State.lean ====
section
/-! SUPPORT. One lemma for each field of the state under each named update of a record, and the laws of tables. -/

namespace Sys2Proof

-- One proof at a time: the package as one text then compiles within the memory it is given.
set_option Elab.async false

/-! ### Tables -/

namespace Tbl

variable {α β : Type} {n : Nat}

theorem get_eq (t : Tbl α n) (i : Fin n) : t.get i = t.rows[i.val]'(by rw [t.size]; exact i.isLt) := rfl

/-- Two tables with the same records are the same table. -/
theorem ext_get {t u : Tbl α n} (h : ∀ i, t.get i = u.get i) : t = u := by
  cases t with
  | mk r hr =>
    cases u with
    | mk q hq =>
      have : r = q := by
        apply List.ext_getElem (by rw [hr, hq])
        intro i h1 h2
        exact h ⟨i, hr ▸ h1⟩
      subst this
      rfl

@[simp] theorem get_set_self (t : Tbl α n) (i : Fin n) (x : α) : (t.set i x).get i = x := by
  simp [get_eq, set]

@[simp] theorem get_set_ne (t : Tbl α n) {i j : Fin n} (x : α) (h : i ≠ j) : (t.set i x).get j = t.get j := by
  have : i.val ≠ j.val := fun e => h (Fin.ext e)
  simp [get_eq, set, this]

/-- A record of a table one of whose records has been replaced. -/
theorem get_set (t : Tbl α n) (i j : Fin n) (x : α) : (t.set i x).get j = if i = j then x else t.get j := by
  by_cases h : i = j
  · subst h; simp
  · simp [h]

@[simp] theorem get_map (f : α → β) (t : Tbl α n) (i : Fin n) : (t.map f).get i = f (t.get i) := by
  simp [get_eq, map]

@[simp] theorem get_fill (x : α) (i : Fin n) : (fill n x).get i = x := by
  simp [get_eq, fill]

@[simp] theorem get_upd_self (t : Tbl α n) (i : Fin n) (f : α → α) : (t.upd i f).get i = f (t.get i) := by
  simp [upd]

@[simp] theorem get_upd_ne (t : Tbl α n) {i j : Fin n} (f : α → α) (h : i ≠ j) : (t.upd i f).get j = t.get j := by
  simp [upd, h]

end Tbl

namespace Machine

@[simp] theorem get_mapIdx {α : Type} {n : Nat} (f : Fin n → α → α) (t : Tbl α n) (i : Fin n) :
    (mapIdx f t).get i = f i (t.get i) := by
  simp [Tbl.get_eq, mapIdx]


/-! ### setZone -/

@[simp] theorem setZone_powered (z : Fin 256) (x : Zone) (s : State) : (setZone z x s).powered = s.powered := rfl
@[simp] theorem setZone_zones_map (z : Fin 256) (x : Zone) (s : State) : (setZone z x s).zones.map = s.zones.map := rfl
@[simp] theorem setZone_zones_table (z : Fin 256) (x : Zone) (s : State) : (setZone z x s).zones.table = s.zones.table.set z x := rfl
@[simp] theorem setZone_zones_isolation (z : Fin 256) (x : Zone) (s : State) : (setZone z x s).zones.isolation = s.zones.isolation := rfl
@[simp] theorem setZone_regime (z : Fin 256) (x : Zone) (s : State) : (setZone z x s).regime = s.regime := rfl
@[simp] theorem setZone_seq (z : Fin 256) (x : Zone) (s : State) : (setZone z x s).seq = s.seq := rfl
@[simp] theorem setZone_lifts (z : Fin 256) (x : Zone) (s : State) : (setZone z x s).lifts = s.lifts := rfl
@[simp] theorem setZone_doors (z : Fin 256) (x : Zone) (s : State) : (setZone z x s).doors = s.doors := rfl
@[simp] theorem setZone_ann (z : Fin 256) (x : Zone) (s : State) : (setZone z x s).ann = s.ann := rfl
@[simp] theorem setZone_port (z : Fin 256) (x : Zone) (s : State) : (setZone z x s).port = s.port := rfl
@[simp] theorem setZone_cls (z : Fin 256) (x : Zone) (s : State) : (setZone z x s).cls = s.cls := rfl
@[simp] theorem setZone_sline (z : Fin 256) (x : Zone) (s : State) : (setZone z x s).sline = s.sline := rfl
@[simp] theorem setZone_log (z : Fin 256) (x : Zone) (s : State) : (setZone z x s).log = s.log := rfl
@[simp] theorem setZone_lines (z : Fin 256) (x : Zone) (s : State) : (setZone z x s).lines = s.lines := rfl
@[simp] theorem setZone_params (z : Fin 256) (x : Zone) (s : State) : (setZone z x s).params = s.params := rfl
@[simp] theorem setZone_addrs (z : Fin 256) (x : Zone) (s : State) : (setZone z x s).addrs = s.addrs := rfl
@[simp] theorem setZone_mgmt (z : Fin 256) (x : Zone) (s : State) : (setZone z x s).mgmt = s.mgmt := rfl
@[simp] theorem setZone_notes (z : Fin 256) (x : Zone) (s : State) : (setZone z x s).notes = s.notes := rfl
@[simp] theorem setZone_failures (z : Fin 256) (x : Zone) (s : State) : (setZone z x s).failures = s.failures := rfl
@[simp] theorem setZone_pending (z : Fin 256) (x : Zone) (s : State) : (setZone z x s).pending = s.pending := rfl

/-! ### setFloor -/

@[simp] theorem setFloor_powered (f : Fin 64) (x : Floor) (s : State) : (setFloor f x s).powered = s.powered := rfl
@[simp] theorem setFloor_zones (f : Fin 64) (x : Floor) (s : State) : (setFloor f x s).zones = s.zones := rfl
@[simp] theorem setFloor_regime (f : Fin 64) (x : Floor) (s : State) : (setFloor f x s).regime = s.regime := rfl
@[simp] theorem setFloor_seq_floors (f : Fin 64) (x : Floor) (s : State) : (setFloor f x s).seq.floors = s.seq.floors.set f x := rfl
@[simp] theorem setFloor_seq_stairs (f : Fin 64) (x : Floor) (s : State) : (setFloor f x s).seq.stairs = s.seq.stairs := rfl
@[simp] theorem setFloor_seq_state (f : Fin 64) (x : Floor) (s : State) : (setFloor f x s).seq.state = s.seq.state := rfl
@[simp] theorem setFloor_seq_phase (f : Fin 64) (x : Floor) (s : State) : (setFloor f x s).seq.phase = s.seq.phase := rfl
@[simp] theorem setFloor_seq_planClock (f : Fin 64) (x : Floor) (s : State) : (setFloor f x s).seq.planClock = s.seq.planClock := rfl
@[simp] theorem setFloor_seq_planTicks (f : Fin 64) (x : Floor) (s : State) : (setFloor f x s).seq.planTicks = s.seq.planTicks := rfl
@[simp] theorem setFloor_lifts (f : Fin 64) (x : Floor) (s : State) : (setFloor f x s).lifts = s.lifts := rfl
@[simp] theorem setFloor_doors (f : Fin 64) (x : Floor) (s : State) : (setFloor f x s).doors = s.doors := rfl
@[simp] theorem setFloor_ann (f : Fin 64) (x : Floor) (s : State) : (setFloor f x s).ann = s.ann := rfl
@[simp] theorem setFloor_port (f : Fin 64) (x : Floor) (s : State) : (setFloor f x s).port = s.port := rfl
@[simp] theorem setFloor_cls (f : Fin 64) (x : Floor) (s : State) : (setFloor f x s).cls = s.cls := rfl
@[simp] theorem setFloor_sline (f : Fin 64) (x : Floor) (s : State) : (setFloor f x s).sline = s.sline := rfl
@[simp] theorem setFloor_log (f : Fin 64) (x : Floor) (s : State) : (setFloor f x s).log = s.log := rfl
@[simp] theorem setFloor_lines (f : Fin 64) (x : Floor) (s : State) : (setFloor f x s).lines = s.lines := rfl
@[simp] theorem setFloor_params (f : Fin 64) (x : Floor) (s : State) : (setFloor f x s).params = s.params := rfl
@[simp] theorem setFloor_addrs (f : Fin 64) (x : Floor) (s : State) : (setFloor f x s).addrs = s.addrs := rfl
@[simp] theorem setFloor_mgmt (f : Fin 64) (x : Floor) (s : State) : (setFloor f x s).mgmt = s.mgmt := rfl
@[simp] theorem setFloor_notes (f : Fin 64) (x : Floor) (s : State) : (setFloor f x s).notes = s.notes := rfl
@[simp] theorem setFloor_failures (f : Fin 64) (x : Floor) (s : State) : (setFloor f x s).failures = s.failures := rfl
@[simp] theorem setFloor_pending (f : Fin 64) (x : Floor) (s : State) : (setFloor f x s).pending = s.pending := rfl

/-! ### setStair -/

@[simp] theorem setStair_powered (st : Fin 4) (x : Stair) (s : State) : (setStair st x s).powered = s.powered := rfl
@[simp] theorem setStair_zones (st : Fin 4) (x : Stair) (s : State) : (setStair st x s).zones = s.zones := rfl
@[simp] theorem setStair_regime (st : Fin 4) (x : Stair) (s : State) : (setStair st x s).regime = s.regime := rfl
@[simp] theorem setStair_seq_floors (st : Fin 4) (x : Stair) (s : State) : (setStair st x s).seq.floors = s.seq.floors := rfl
@[simp] theorem setStair_seq_stairs (st : Fin 4) (x : Stair) (s : State) : (setStair st x s).seq.stairs = s.seq.stairs.set st x := rfl
@[simp] theorem setStair_seq_state (st : Fin 4) (x : Stair) (s : State) : (setStair st x s).seq.state = s.seq.state := rfl
@[simp] theorem setStair_seq_phase (st : Fin 4) (x : Stair) (s : State) : (setStair st x s).seq.phase = s.seq.phase := rfl
@[simp] theorem setStair_seq_planClock (st : Fin 4) (x : Stair) (s : State) : (setStair st x s).seq.planClock = s.seq.planClock := rfl
@[simp] theorem setStair_seq_planTicks (st : Fin 4) (x : Stair) (s : State) : (setStair st x s).seq.planTicks = s.seq.planTicks := rfl
@[simp] theorem setStair_lifts (st : Fin 4) (x : Stair) (s : State) : (setStair st x s).lifts = s.lifts := rfl
@[simp] theorem setStair_doors (st : Fin 4) (x : Stair) (s : State) : (setStair st x s).doors = s.doors := rfl
@[simp] theorem setStair_ann (st : Fin 4) (x : Stair) (s : State) : (setStair st x s).ann = s.ann := rfl
@[simp] theorem setStair_port (st : Fin 4) (x : Stair) (s : State) : (setStair st x s).port = s.port := rfl
@[simp] theorem setStair_cls (st : Fin 4) (x : Stair) (s : State) : (setStair st x s).cls = s.cls := rfl
@[simp] theorem setStair_sline (st : Fin 4) (x : Stair) (s : State) : (setStair st x s).sline = s.sline := rfl
@[simp] theorem setStair_log (st : Fin 4) (x : Stair) (s : State) : (setStair st x s).log = s.log := rfl
@[simp] theorem setStair_lines (st : Fin 4) (x : Stair) (s : State) : (setStair st x s).lines = s.lines := rfl
@[simp] theorem setStair_params (st : Fin 4) (x : Stair) (s : State) : (setStair st x s).params = s.params := rfl
@[simp] theorem setStair_addrs (st : Fin 4) (x : Stair) (s : State) : (setStair st x s).addrs = s.addrs := rfl
@[simp] theorem setStair_mgmt (st : Fin 4) (x : Stair) (s : State) : (setStair st x s).mgmt = s.mgmt := rfl
@[simp] theorem setStair_notes (st : Fin 4) (x : Stair) (s : State) : (setStair st x s).notes = s.notes := rfl
@[simp] theorem setStair_failures (st : Fin 4) (x : Stair) (s : State) : (setStair st x s).failures = s.failures := rfl
@[simp] theorem setStair_pending (st : Fin 4) (x : Stair) (s : State) : (setStair st x s).pending = s.pending := rfl

/-! ### setCar -/

@[simp] theorem setCar_powered (i : Fin 8) (c : Car) (s : State) : (setCar i c s).powered = s.powered := rfl
@[simp] theorem setCar_zones (i : Fin 8) (c : Car) (s : State) : (setCar i c s).zones = s.zones := rfl
@[simp] theorem setCar_regime (i : Fin 8) (c : Car) (s : State) : (setCar i c s).regime = s.regime := rfl
@[simp] theorem setCar_seq (i : Fin 8) (c : Car) (s : State) : (setCar i c s).seq = s.seq := rfl
@[simp] theorem setCar_lifts_banks (i : Fin 8) (c : Car) (s : State) : (setCar i c s).lifts.banks = s.lifts.banks := rfl
@[simp] theorem setCar_lifts_cars (i : Fin 8) (c : Car) (s : State) : (setCar i c s).lifts.cars = s.lifts.cars.set i (some c) := rfl
@[simp] theorem setCar_doors (i : Fin 8) (c : Car) (s : State) : (setCar i c s).doors = s.doors := rfl
@[simp] theorem setCar_ann (i : Fin 8) (c : Car) (s : State) : (setCar i c s).ann = s.ann := rfl
@[simp] theorem setCar_port (i : Fin 8) (c : Car) (s : State) : (setCar i c s).port = s.port := rfl
@[simp] theorem setCar_cls (i : Fin 8) (c : Car) (s : State) : (setCar i c s).cls = s.cls := rfl
@[simp] theorem setCar_sline (i : Fin 8) (c : Car) (s : State) : (setCar i c s).sline = s.sline := rfl
@[simp] theorem setCar_log (i : Fin 8) (c : Car) (s : State) : (setCar i c s).log = s.log := rfl
@[simp] theorem setCar_lines (i : Fin 8) (c : Car) (s : State) : (setCar i c s).lines = s.lines := rfl
@[simp] theorem setCar_params (i : Fin 8) (c : Car) (s : State) : (setCar i c s).params = s.params := rfl
@[simp] theorem setCar_addrs (i : Fin 8) (c : Car) (s : State) : (setCar i c s).addrs = s.addrs := rfl
@[simp] theorem setCar_mgmt (i : Fin 8) (c : Car) (s : State) : (setCar i c s).mgmt = s.mgmt := rfl
@[simp] theorem setCar_notes (i : Fin 8) (c : Car) (s : State) : (setCar i c s).notes = s.notes := rfl
@[simp] theorem setCar_failures (i : Fin 8) (c : Car) (s : State) : (setCar i c s).failures = s.failures := rfl
@[simp] theorem setCar_pending (i : Fin 8) (c : Car) (s : State) : (setCar i c s).pending = s.pending := rfl

/-! ### setPoint -/

@[simp] theorem setPoint_powered (i : Fin 128) (p : DoorPoint) (s : State) : (setPoint i p s).powered = s.powered := rfl
@[simp] theorem setPoint_zones (i : Fin 128) (p : DoorPoint) (s : State) : (setPoint i p s).zones = s.zones := rfl
@[simp] theorem setPoint_regime (i : Fin 128) (p : DoorPoint) (s : State) : (setPoint i p s).regime = s.regime := rfl
@[simp] theorem setPoint_seq (i : Fin 128) (p : DoorPoint) (s : State) : (setPoint i p s).seq = s.seq := rfl
@[simp] theorem setPoint_lifts (i : Fin 128) (p : DoorPoint) (s : State) : (setPoint i p s).lifts = s.lifts := rfl
@[simp] theorem setPoint_doors_points (i : Fin 128) (p : DoorPoint) (s : State) : (setPoint i p s).doors.points = s.doors.points.set i (some p) := rfl
@[simp] theorem setPoint_doors_relock (i : Fin 128) (p : DoorPoint) (s : State) : (setPoint i p s).doors.relock = s.doors.relock := rfl
@[simp] theorem setPoint_ann (i : Fin 128) (p : DoorPoint) (s : State) : (setPoint i p s).ann = s.ann := rfl
@[simp] theorem setPoint_port (i : Fin 128) (p : DoorPoint) (s : State) : (setPoint i p s).port = s.port := rfl
@[simp] theorem setPoint_cls (i : Fin 128) (p : DoorPoint) (s : State) : (setPoint i p s).cls = s.cls := rfl
@[simp] theorem setPoint_sline (i : Fin 128) (p : DoorPoint) (s : State) : (setPoint i p s).sline = s.sline := rfl
@[simp] theorem setPoint_log (i : Fin 128) (p : DoorPoint) (s : State) : (setPoint i p s).log = s.log := rfl
@[simp] theorem setPoint_lines (i : Fin 128) (p : DoorPoint) (s : State) : (setPoint i p s).lines = s.lines := rfl
@[simp] theorem setPoint_params (i : Fin 128) (p : DoorPoint) (s : State) : (setPoint i p s).params = s.params := rfl
@[simp] theorem setPoint_addrs (i : Fin 128) (p : DoorPoint) (s : State) : (setPoint i p s).addrs = s.addrs := rfl
@[simp] theorem setPoint_mgmt (i : Fin 128) (p : DoorPoint) (s : State) : (setPoint i p s).mgmt = s.mgmt := rfl
@[simp] theorem setPoint_notes (i : Fin 128) (p : DoorPoint) (s : State) : (setPoint i p s).notes = s.notes := rfl
@[simp] theorem setPoint_failures (i : Fin 128) (p : DoorPoint) (s : State) : (setPoint i p s).failures = s.failures := rfl
@[simp] theorem setPoint_pending (i : Fin 128) (p : DoorPoint) (s : State) : (setPoint i p s).pending = s.pending := rfl

/-! ### setJob -/

@[simp] theorem setJob_powered (j : Fin 16) (x : Option Job) (s : State) : (setJob j x s).powered = s.powered := rfl
@[simp] theorem setJob_zones (j : Fin 16) (x : Option Job) (s : State) : (setJob j x s).zones = s.zones := rfl
@[simp] theorem setJob_regime (j : Fin 16) (x : Option Job) (s : State) : (setJob j x s).regime = s.regime := rfl
@[simp] theorem setJob_seq (j : Fin 16) (x : Option Job) (s : State) : (setJob j x s).seq = s.seq := rfl
@[simp] theorem setJob_lifts (j : Fin 16) (x : Option Job) (s : State) : (setJob j x s).lifts = s.lifts := rfl
@[simp] theorem setJob_doors (j : Fin 16) (x : Option Job) (s : State) : (setJob j x s).doors = s.doors := rfl
@[simp] theorem setJob_ann_rows (j : Fin 16) (x : Option Job) (s : State) : (setJob j x s).ann.rows = s.ann.rows := rfl
@[simp] theorem setJob_ann_racks (j : Fin 16) (x : Option Job) (s : State) : (setJob j x s).ann.racks = s.ann.racks := rfl
@[simp] theorem setJob_ann_jobs (j : Fin 16) (x : Option Job) (s : State) : (setJob j x s).ann.jobs = s.ann.jobs.set j x := rfl
@[simp] theorem setJob_ann_channels (j : Fin 16) (x : Option Job) (s : State) : (setJob j x s).ann.channels = s.ann.channels := rfl
@[simp] theorem setJob_ann_tenants (j : Fin 16) (x : Option Job) (s : State) : (setJob j x s).ann.tenants = s.ann.tenants := rfl
@[simp] theorem setJob_ann_owed (j : Fin 16) (x : Option Job) (s : State) : (setJob j x s).ann.owed = s.ann.owed := rfl
@[simp] theorem setJob_ann_testTimer (j : Fin 16) (x : Option Job) (s : State) : (setJob j x s).ann.testTimer = s.ann.testTimer := rfl
@[simp] theorem setJob_ann_liveLimit (j : Fin 16) (x : Option Job) (s : State) : (setJob j x s).ann.liveLimit = s.ann.liveLimit := rfl
@[simp] theorem setJob_port (j : Fin 16) (x : Option Job) (s : State) : (setJob j x s).port = s.port := rfl
@[simp] theorem setJob_cls (j : Fin 16) (x : Option Job) (s : State) : (setJob j x s).cls = s.cls := rfl
@[simp] theorem setJob_sline (j : Fin 16) (x : Option Job) (s : State) : (setJob j x s).sline = s.sline := rfl
@[simp] theorem setJob_log (j : Fin 16) (x : Option Job) (s : State) : (setJob j x s).log = s.log := rfl
@[simp] theorem setJob_lines (j : Fin 16) (x : Option Job) (s : State) : (setJob j x s).lines = s.lines := rfl
@[simp] theorem setJob_params (j : Fin 16) (x : Option Job) (s : State) : (setJob j x s).params = s.params := rfl
@[simp] theorem setJob_addrs (j : Fin 16) (x : Option Job) (s : State) : (setJob j x s).addrs = s.addrs := rfl
@[simp] theorem setJob_mgmt (j : Fin 16) (x : Option Job) (s : State) : (setJob j x s).mgmt = s.mgmt := rfl
@[simp] theorem setJob_notes (j : Fin 16) (x : Option Job) (s : State) : (setJob j x s).notes = s.notes := rfl
@[simp] theorem setJob_failures (j : Fin 16) (x : Option Job) (s : State) : (setJob j x s).failures = s.failures := rfl
@[simp] theorem setJob_pending (j : Fin 16) (x : Option Job) (s : State) : (setJob j x s).pending = s.pending := rfl

/-! ### setChannel -/

@[simp] theorem setChannel_powered (k : Fin 2) (c : Channel) (s : State) : (setChannel k c s).powered = s.powered := rfl
@[simp] theorem setChannel_zones (k : Fin 2) (c : Channel) (s : State) : (setChannel k c s).zones = s.zones := rfl
@[simp] theorem setChannel_regime (k : Fin 2) (c : Channel) (s : State) : (setChannel k c s).regime = s.regime := rfl
@[simp] theorem setChannel_seq (k : Fin 2) (c : Channel) (s : State) : (setChannel k c s).seq = s.seq := rfl
@[simp] theorem setChannel_lifts (k : Fin 2) (c : Channel) (s : State) : (setChannel k c s).lifts = s.lifts := rfl
@[simp] theorem setChannel_doors (k : Fin 2) (c : Channel) (s : State) : (setChannel k c s).doors = s.doors := rfl
@[simp] theorem setChannel_ann_rows (k : Fin 2) (c : Channel) (s : State) : (setChannel k c s).ann.rows = s.ann.rows := rfl
@[simp] theorem setChannel_ann_racks (k : Fin 2) (c : Channel) (s : State) : (setChannel k c s).ann.racks = s.ann.racks := rfl
@[simp] theorem setChannel_ann_jobs (k : Fin 2) (c : Channel) (s : State) : (setChannel k c s).ann.jobs = s.ann.jobs := rfl
@[simp] theorem setChannel_ann_channels (k : Fin 2) (c : Channel) (s : State) : (setChannel k c s).ann.channels = s.ann.channels.set k c := rfl
@[simp] theorem setChannel_ann_tenants (k : Fin 2) (c : Channel) (s : State) : (setChannel k c s).ann.tenants = s.ann.tenants := rfl
@[simp] theorem setChannel_ann_owed (k : Fin 2) (c : Channel) (s : State) : (setChannel k c s).ann.owed = s.ann.owed := rfl
@[simp] theorem setChannel_ann_testTimer (k : Fin 2) (c : Channel) (s : State) : (setChannel k c s).ann.testTimer = s.ann.testTimer := rfl
@[simp] theorem setChannel_ann_liveLimit (k : Fin 2) (c : Channel) (s : State) : (setChannel k c s).ann.liveLimit = s.ann.liveLimit := rfl
@[simp] theorem setChannel_port (k : Fin 2) (c : Channel) (s : State) : (setChannel k c s).port = s.port := rfl
@[simp] theorem setChannel_cls (k : Fin 2) (c : Channel) (s : State) : (setChannel k c s).cls = s.cls := rfl
@[simp] theorem setChannel_sline (k : Fin 2) (c : Channel) (s : State) : (setChannel k c s).sline = s.sline := rfl
@[simp] theorem setChannel_log (k : Fin 2) (c : Channel) (s : State) : (setChannel k c s).log = s.log := rfl
@[simp] theorem setChannel_lines (k : Fin 2) (c : Channel) (s : State) : (setChannel k c s).lines = s.lines := rfl
@[simp] theorem setChannel_params (k : Fin 2) (c : Channel) (s : State) : (setChannel k c s).params = s.params := rfl
@[simp] theorem setChannel_addrs (k : Fin 2) (c : Channel) (s : State) : (setChannel k c s).addrs = s.addrs := rfl
@[simp] theorem setChannel_mgmt (k : Fin 2) (c : Channel) (s : State) : (setChannel k c s).mgmt = s.mgmt := rfl
@[simp] theorem setChannel_notes (k : Fin 2) (c : Channel) (s : State) : (setChannel k c s).notes = s.notes := rfl
@[simp] theorem setChannel_failures (k : Fin 2) (c : Channel) (s : State) : (setChannel k c s).failures = s.failures := rfl
@[simp] theorem setChannel_pending (k : Fin 2) (c : Channel) (s : State) : (setChannel k c s).pending = s.pending := rfl

/-! ### setRack -/

@[simp] theorem setRack_powered (r : Fin 4) (x : Rack) (s : State) : (setRack r x s).powered = s.powered := rfl
@[simp] theorem setRack_zones (r : Fin 4) (x : Rack) (s : State) : (setRack r x s).zones = s.zones := rfl
@[simp] theorem setRack_regime (r : Fin 4) (x : Rack) (s : State) : (setRack r x s).regime = s.regime := rfl
@[simp] theorem setRack_seq (r : Fin 4) (x : Rack) (s : State) : (setRack r x s).seq = s.seq := rfl
@[simp] theorem setRack_lifts (r : Fin 4) (x : Rack) (s : State) : (setRack r x s).lifts = s.lifts := rfl
@[simp] theorem setRack_doors (r : Fin 4) (x : Rack) (s : State) : (setRack r x s).doors = s.doors := rfl
@[simp] theorem setRack_ann_rows (r : Fin 4) (x : Rack) (s : State) : (setRack r x s).ann.rows = s.ann.rows := rfl
@[simp] theorem setRack_ann_racks (r : Fin 4) (x : Rack) (s : State) : (setRack r x s).ann.racks = s.ann.racks.set r x := rfl
@[simp] theorem setRack_ann_jobs (r : Fin 4) (x : Rack) (s : State) : (setRack r x s).ann.jobs = s.ann.jobs := rfl
@[simp] theorem setRack_ann_channels (r : Fin 4) (x : Rack) (s : State) : (setRack r x s).ann.channels = s.ann.channels := rfl
@[simp] theorem setRack_ann_tenants (r : Fin 4) (x : Rack) (s : State) : (setRack r x s).ann.tenants = s.ann.tenants := rfl
@[simp] theorem setRack_ann_owed (r : Fin 4) (x : Rack) (s : State) : (setRack r x s).ann.owed = s.ann.owed := rfl
@[simp] theorem setRack_ann_testTimer (r : Fin 4) (x : Rack) (s : State) : (setRack r x s).ann.testTimer = s.ann.testTimer := rfl
@[simp] theorem setRack_ann_liveLimit (r : Fin 4) (x : Rack) (s : State) : (setRack r x s).ann.liveLimit = s.ann.liveLimit := rfl
@[simp] theorem setRack_port (r : Fin 4) (x : Rack) (s : State) : (setRack r x s).port = s.port := rfl
@[simp] theorem setRack_cls (r : Fin 4) (x : Rack) (s : State) : (setRack r x s).cls = s.cls := rfl
@[simp] theorem setRack_sline (r : Fin 4) (x : Rack) (s : State) : (setRack r x s).sline = s.sline := rfl
@[simp] theorem setRack_log (r : Fin 4) (x : Rack) (s : State) : (setRack r x s).log = s.log := rfl
@[simp] theorem setRack_lines (r : Fin 4) (x : Rack) (s : State) : (setRack r x s).lines = s.lines := rfl
@[simp] theorem setRack_params (r : Fin 4) (x : Rack) (s : State) : (setRack r x s).params = s.params := rfl
@[simp] theorem setRack_addrs (r : Fin 4) (x : Rack) (s : State) : (setRack r x s).addrs = s.addrs := rfl
@[simp] theorem setRack_mgmt (r : Fin 4) (x : Rack) (s : State) : (setRack r x s).mgmt = s.mgmt := rfl
@[simp] theorem setRack_notes (r : Fin 4) (x : Rack) (s : State) : (setRack r x s).notes = s.notes := rfl
@[simp] theorem setRack_failures (r : Fin 4) (x : Rack) (s : State) : (setRack r x s).failures = s.failures := rfl
@[simp] theorem setRack_pending (r : Fin 4) (x : Rack) (s : State) : (setRack r x s).pending = s.pending := rfl

/-! ### setStation -/

@[simp] theorem setStation_powered (i : Fin 48) (x : Option Station) (s : State) : (setStation i x s).powered = s.powered := rfl
@[simp] theorem setStation_zones (i : Fin 48) (x : Option Station) (s : State) : (setStation i x s).zones = s.zones := rfl
@[simp] theorem setStation_regime (i : Fin 48) (x : Option Station) (s : State) : (setStation i x s).regime = s.regime := rfl
@[simp] theorem setStation_seq (i : Fin 48) (x : Option Station) (s : State) : (setStation i x s).seq = s.seq := rfl
@[simp] theorem setStation_lifts (i : Fin 48) (x : Option Station) (s : State) : (setStation i x s).lifts = s.lifts := rfl
@[simp] theorem setStation_doors (i : Fin 48) (x : Option Station) (s : State) : (setStation i x s).doors = s.doors := rfl
@[simp] theorem setStation_ann (i : Fin 48) (x : Option Station) (s : State) : (setStation i x s).ann = s.ann := rfl
@[simp] theorem setStation_port (i : Fin 48) (x : Option Station) (s : State) : (setStation i x s).port = s.port := rfl
@[simp] theorem setStation_cls (i : Fin 48) (x : Option Station) (s : State) : (setStation i x s).cls = s.cls := rfl
@[simp] theorem setStation_sline_stations (i : Fin 48) (x : Option Station) (s : State) : (setStation i x s).sline.stations = s.sline.stations.set i x := rfl
@[simp] theorem setStation_sline_pointer (i : Fin 48) (x : Option Station) (s : State) : (setStation i x s).sline.pointer = s.sline.pointer := rfl
@[simp] theorem setStation_sline_early (i : Fin 48) (x : Option Station) (s : State) : (setStation i x s).sline.early = s.sline.early := rfl
@[simp] theorem setStation_sline_burst (i : Fin 48) (x : Option Station) (s : State) : (setStation i x s).sline.burst = s.sline.burst := rfl
@[simp] theorem setStation_sline_mode (i : Fin 48) (x : Option Station) (s : State) : (setStation i x s).sline.mode = s.sline.mode := rfl
@[simp] theorem setStation_sline_quietTimer (i : Fin 48) (x : Option Station) (s : State) : (setStation i x s).sline.quietTimer = s.sline.quietTimer := rfl
@[simp] theorem setStation_sline_txn (i : Fin 48) (x : Option Station) (s : State) : (setStation i x s).sline.txn = s.sline.txn := rfl
@[simp] theorem setStation_sline_line (i : Fin 48) (x : Option Station) (s : State) : (setStation i x s).sline.line = s.sline.line := rfl
@[simp] theorem setStation_log (i : Fin 48) (x : Option Station) (s : State) : (setStation i x s).log = s.log := rfl
@[simp] theorem setStation_lines (i : Fin 48) (x : Option Station) (s : State) : (setStation i x s).lines = s.lines := rfl
@[simp] theorem setStation_params (i : Fin 48) (x : Option Station) (s : State) : (setStation i x s).params = s.params := rfl
@[simp] theorem setStation_addrs (i : Fin 48) (x : Option Station) (s : State) : (setStation i x s).addrs = s.addrs := rfl
@[simp] theorem setStation_mgmt (i : Fin 48) (x : Option Station) (s : State) : (setStation i x s).mgmt = s.mgmt := rfl
@[simp] theorem setStation_notes (i : Fin 48) (x : Option Station) (s : State) : (setStation i x s).notes = s.notes := rfl
@[simp] theorem setStation_failures (i : Fin 48) (x : Option Station) (s : State) : (setStation i x s).failures = s.failures := rfl
@[simp] theorem setStation_pending (i : Fin 48) (x : Option Station) (s : State) : (setStation i x s).pending = s.pending := rfl

/-! ### setParams -/

@[simp] theorem setParams_powered (f : Params → Params) (s : State) : (setParams f s).powered = s.powered := rfl
@[simp] theorem setParams_zones (f : Params → Params) (s : State) : (setParams f s).zones = s.zones := rfl
@[simp] theorem setParams_regime (f : Params → Params) (s : State) : (setParams f s).regime = s.regime := rfl
@[simp] theorem setParams_seq (f : Params → Params) (s : State) : (setParams f s).seq = s.seq := rfl
@[simp] theorem setParams_lifts (f : Params → Params) (s : State) : (setParams f s).lifts = s.lifts := rfl
@[simp] theorem setParams_doors (f : Params → Params) (s : State) : (setParams f s).doors = s.doors := rfl
@[simp] theorem setParams_ann (f : Params → Params) (s : State) : (setParams f s).ann = s.ann := rfl
@[simp] theorem setParams_port (f : Params → Params) (s : State) : (setParams f s).port = s.port := rfl
@[simp] theorem setParams_cls (f : Params → Params) (s : State) : (setParams f s).cls = s.cls := rfl
@[simp] theorem setParams_sline (f : Params → Params) (s : State) : (setParams f s).sline = s.sline := rfl
@[simp] theorem setParams_log (f : Params → Params) (s : State) : (setParams f s).log = s.log := rfl
@[simp] theorem setParams_lines (f : Params → Params) (s : State) : (setParams f s).lines = s.lines := rfl
@[simp] theorem setParams_params (f : Params → Params) (s : State) : (setParams f s).params = f s.params := rfl
@[simp] theorem setParams_addrs (f : Params → Params) (s : State) : (setParams f s).addrs = s.addrs := rfl
@[simp] theorem setParams_mgmt (f : Params → Params) (s : State) : (setParams f s).mgmt = s.mgmt := rfl
@[simp] theorem setParams_notes (f : Params → Params) (s : State) : (setParams f s).notes = s.notes := rfl
@[simp] theorem setParams_failures (f : Params → Params) (s : State) : (setParams f s).failures = s.failures := rfl
@[simp] theorem setParams_pending (f : Params → Params) (s : State) : (setParams f s).pending = s.pending := rfl

/-! ### beginWrite -/

@[simp] theorem beginWrite_powered (w : StoreWrite) (s : State) : (beginWrite w s).powered = s.powered := rfl
@[simp] theorem beginWrite_zones (w : StoreWrite) (s : State) : (beginWrite w s).zones = s.zones := rfl
@[simp] theorem beginWrite_regime (w : StoreWrite) (s : State) : (beginWrite w s).regime = s.regime := rfl
@[simp] theorem beginWrite_seq (w : StoreWrite) (s : State) : (beginWrite w s).seq = s.seq := rfl
@[simp] theorem beginWrite_lifts (w : StoreWrite) (s : State) : (beginWrite w s).lifts = s.lifts := rfl
@[simp] theorem beginWrite_doors (w : StoreWrite) (s : State) : (beginWrite w s).doors = s.doors := rfl
@[simp] theorem beginWrite_ann (w : StoreWrite) (s : State) : (beginWrite w s).ann = s.ann := rfl
@[simp] theorem beginWrite_port (w : StoreWrite) (s : State) : (beginWrite w s).port = s.port := rfl
@[simp] theorem beginWrite_cls (w : StoreWrite) (s : State) : (beginWrite w s).cls = s.cls := rfl
@[simp] theorem beginWrite_sline (w : StoreWrite) (s : State) : (beginWrite w s).sline = s.sline := rfl
@[simp] theorem beginWrite_log (w : StoreWrite) (s : State) : (beginWrite w s).log = s.log := rfl
@[simp] theorem beginWrite_lines (w : StoreWrite) (s : State) : (beginWrite w s).lines = s.lines := rfl
@[simp] theorem beginWrite_params (w : StoreWrite) (s : State) : (beginWrite w s).params = s.params := rfl
@[simp] theorem beginWrite_addrs (w : StoreWrite) (s : State) : (beginWrite w s).addrs = s.addrs := rfl
@[simp] theorem beginWrite_mgmt_key (w : StoreWrite) (s : State) : (beginWrite w s).mgmt.key = s.mgmt.key := rfl
@[simp] theorem beginWrite_mgmt_store (w : StoreWrite) (s : State) : (beginWrite w s).mgmt.store = s.mgmt.store := rfl
@[simp] theorem beginWrite_mgmt_writes (w : StoreWrite) (s : State) : (beginWrite w s).mgmt.writes = s.mgmt.writes ++ [w] := rfl
@[simp] theorem beginWrite_mgmt_wait (w : StoreWrite) (s : State) : (beginWrite w s).mgmt.wait = s.mgmt.wait := rfl
@[simp] theorem beginWrite_notes (w : StoreWrite) (s : State) : (beginWrite w s).notes = s.notes := rfl
@[simp] theorem beginWrite_failures (w : StoreWrite) (s : State) : (beginWrite w s).failures = s.failures := rfl
@[simp] theorem beginWrite_pending (w : StoreWrite) (s : State) : (beginWrite w s).pending = s.pending := rfl

/-! ### settleLines -/

@[simp] theorem settleLines_powered (b : State) (s : State) : (settleLines b s).powered = s.powered := rfl
@[simp] theorem settleLines_zones (b : State) (s : State) : (settleLines b s).zones = s.zones := rfl
@[simp] theorem settleLines_regime (b : State) (s : State) : (settleLines b s).regime = s.regime := rfl
@[simp] theorem settleLines_seq (b : State) (s : State) : (settleLines b s).seq = s.seq := rfl
@[simp] theorem settleLines_lifts (b : State) (s : State) : (settleLines b s).lifts = s.lifts := rfl
@[simp] theorem settleLines_doors (b : State) (s : State) : (settleLines b s).doors = s.doors := rfl
@[simp] theorem settleLines_ann (b : State) (s : State) : (settleLines b s).ann = s.ann := rfl
@[simp] theorem settleLines_port (b : State) (s : State) : (settleLines b s).port = s.port := rfl
@[simp] theorem settleLines_cls (b : State) (s : State) : (settleLines b s).cls = s.cls := rfl
@[simp] theorem settleLines_sline (b : State) (s : State) : (settleLines b s).sline = s.sline := rfl
@[simp] theorem settleLines_log (b : State) (s : State) : (settleLines b s).log = s.log := rfl
@[simp] theorem settleLines_lines (b : State) (s : State) : (settleLines b s).lines = s.lines.map (settleLine b s) := rfl
@[simp] theorem settleLines_params (b : State) (s : State) : (settleLines b s).params = s.params := rfl
@[simp] theorem settleLines_addrs (b : State) (s : State) : (settleLines b s).addrs = s.addrs := rfl
@[simp] theorem settleLines_mgmt (b : State) (s : State) : (settleLines b s).mgmt = s.mgmt := rfl
@[simp] theorem settleLines_notes (b : State) (s : State) : (settleLines b s).notes = { s.notes with onsets := 0 } := rfl
@[simp] theorem settleLines_failures (b : State) (s : State) : (settleLines b s).failures = s.failures := rfl
@[simp] theorem settleLines_pending (b : State) (s : State) : (settleLines b s).pending = s.pending := rfl

/-! ### setRx on the P-line -/

@[simp] theorem setRx_p_powered (r : Rx) (s : State) : (setRx .p r s).powered = s.powered := rfl
@[simp] theorem setRx_p_zones (r : Rx) (s : State) : (setRx .p r s).zones = s.zones := rfl
@[simp] theorem setRx_p_regime (r : Rx) (s : State) : (setRx .p r s).regime = s.regime := rfl
@[simp] theorem setRx_p_seq (r : Rx) (s : State) : (setRx .p r s).seq = s.seq := rfl
@[simp] theorem setRx_p_lifts (r : Rx) (s : State) : (setRx .p r s).lifts = s.lifts := rfl
@[simp] theorem setRx_p_doors (r : Rx) (s : State) : (setRx .p r s).doors = s.doors := rfl
@[simp] theorem setRx_p_ann (r : Rx) (s : State) : (setRx .p r s).ann = s.ann := rfl
@[simp] theorem setRx_p_port_queue (r : Rx) (s : State) : (setRx .p r s).port.queue = s.port.queue := rfl
@[simp] theorem setRx_p_port_turn (r : Rx) (s : State) : (setRx .p r s).port.turn = s.port.turn := rfl
@[simp] theorem setRx_p_port_timeout (r : Rx) (s : State) : (setRx .p r s).port.timeout = s.port.timeout := rfl
@[simp] theorem setRx_p_port_silent (r : Rx) (s : State) : (setRx .p r s).port.silent = s.port.silent := rfl
@[simp] theorem setRx_p_port_line (r : Rx) (s : State) : (setRx .p r s).port.line = { s.port.line with rx := r } := rfl
@[simp] theorem setRx_p_cls (r : Rx) (s : State) : (setRx .p r s).cls = s.cls := rfl
@[simp] theorem setRx_p_sline (r : Rx) (s : State) : (setRx .p r s).sline = s.sline := rfl
@[simp] theorem setRx_p_log (r : Rx) (s : State) : (setRx .p r s).log = s.log := rfl
@[simp] theorem setRx_p_lines (r : Rx) (s : State) : (setRx .p r s).lines = s.lines := rfl
@[simp] theorem setRx_p_params (r : Rx) (s : State) : (setRx .p r s).params = s.params := rfl
@[simp] theorem setRx_p_addrs (r : Rx) (s : State) : (setRx .p r s).addrs = s.addrs := rfl
@[simp] theorem setRx_p_mgmt (r : Rx) (s : State) : (setRx .p r s).mgmt = s.mgmt := rfl
@[simp] theorem setRx_p_notes (r : Rx) (s : State) : (setRx .p r s).notes = s.notes := rfl
@[simp] theorem setRx_p_failures (r : Rx) (s : State) : (setRx .p r s).failures = s.failures := rfl
@[simp] theorem setRx_p_pending (r : Rx) (s : State) : (setRx .p r s).pending = s.pending := rfl

/-! ### beginEvent -/

@[simp] theorem beginEvent_powered (s : State) : (beginEvent s).powered = s.powered := rfl
@[simp] theorem beginEvent_zones (s : State) : (beginEvent s).zones = s.zones := rfl
@[simp] theorem beginEvent_regime (s : State) : (beginEvent s).regime = s.regime := rfl
@[simp] theorem beginEvent_seq (s : State) : (beginEvent s).seq = s.seq := rfl
@[simp] theorem beginEvent_lifts (s : State) : (beginEvent s).lifts = s.lifts := rfl
@[simp] theorem beginEvent_doors (s : State) : (beginEvent s).doors = s.doors := rfl
@[simp] theorem beginEvent_ann (s : State) : (beginEvent s).ann = s.ann := rfl
@[simp] theorem beginEvent_port (s : State) : (beginEvent s).port = s.port := rfl
@[simp] theorem beginEvent_cls (s : State) : (beginEvent s).cls = s.cls := rfl
@[simp] theorem beginEvent_sline (s : State) : (beginEvent s).sline = s.sline := rfl
@[simp] theorem beginEvent_log (s : State) : (beginEvent s).log = s.log := rfl
@[simp] theorem beginEvent_lines (s : State) : (beginEvent s).lines = s.lines := rfl
@[simp] theorem beginEvent_params (s : State) : (beginEvent s).params = s.params := rfl
@[simp] theorem beginEvent_addrs (s : State) : (beginEvent s).addrs = s.addrs := rfl
@[simp] theorem beginEvent_mgmt (s : State) : (beginEvent s).mgmt = s.mgmt := rfl
@[simp] theorem beginEvent_notes (s : State) : (beginEvent s).notes = { onsets := 0, owners := [] } := rfl
@[simp] theorem beginEvent_failures (s : State) : (beginEvent s).failures = s.failures := rfl
@[simp] theorem beginEvent_pending (s : State) : (beginEvent s).pending = s.pending := rfl

/-! ### noteOwner -/

@[simp] theorem noteOwner_powered (a : Byte) (s : State) : (noteOwner a s).powered = s.powered := rfl
@[simp] theorem noteOwner_zones (a : Byte) (s : State) : (noteOwner a s).zones = s.zones := rfl
@[simp] theorem noteOwner_regime (a : Byte) (s : State) : (noteOwner a s).regime = s.regime := rfl
@[simp] theorem noteOwner_seq (a : Byte) (s : State) : (noteOwner a s).seq = s.seq := rfl
@[simp] theorem noteOwner_lifts (a : Byte) (s : State) : (noteOwner a s).lifts = s.lifts := rfl
@[simp] theorem noteOwner_doors (a : Byte) (s : State) : (noteOwner a s).doors = s.doors := rfl
@[simp] theorem noteOwner_ann (a : Byte) (s : State) : (noteOwner a s).ann = s.ann := rfl
@[simp] theorem noteOwner_port (a : Byte) (s : State) : (noteOwner a s).port = s.port := rfl
@[simp] theorem noteOwner_cls (a : Byte) (s : State) : (noteOwner a s).cls = s.cls := rfl
@[simp] theorem noteOwner_sline (a : Byte) (s : State) : (noteOwner a s).sline = s.sline := rfl
@[simp] theorem noteOwner_log (a : Byte) (s : State) : (noteOwner a s).log = s.log := rfl
@[simp] theorem noteOwner_lines (a : Byte) (s : State) : (noteOwner a s).lines = s.lines := rfl
@[simp] theorem noteOwner_params (a : Byte) (s : State) : (noteOwner a s).params = s.params := rfl
@[simp] theorem noteOwner_addrs (a : Byte) (s : State) : (noteOwner a s).addrs = s.addrs := rfl
@[simp] theorem noteOwner_mgmt (a : Byte) (s : State) : (noteOwner a s).mgmt = s.mgmt := rfl
@[simp] theorem noteOwner_notes (a : Byte) (s : State) : (noteOwner a s).notes = { s.notes with owners := s.notes.owners ++ [a] } := rfl
@[simp] theorem noteOwner_failures (a : Byte) (s : State) : (noteOwner a s).failures = s.failures := rfl
@[simp] theorem noteOwner_pending (a : Byte) (s : State) : (noteOwner a s).pending = s.pending := rfl

/-! ### noteOnset -/

@[simp] theorem noteOnset_powered (c : Condition) (b : State) (s : State) : (noteOnset c b s).powered = s.powered := by
  unfold noteOnset; split <;> rfl
@[simp] theorem noteOnset_zones (c : Condition) (b : State) (s : State) : (noteOnset c b s).zones = s.zones := by
  unfold noteOnset; split <;> rfl
@[simp] theorem noteOnset_regime (c : Condition) (b : State) (s : State) : (noteOnset c b s).regime = s.regime := by
  unfold noteOnset; split <;> rfl
@[simp] theorem noteOnset_seq (c : Condition) (b : State) (s : State) : (noteOnset c b s).seq = s.seq := by
  unfold noteOnset; split <;> rfl
@[simp] theorem noteOnset_lifts (c : Condition) (b : State) (s : State) : (noteOnset c b s).lifts = s.lifts := by
  unfold noteOnset; split <;> rfl
@[simp] theorem noteOnset_doors (c : Condition) (b : State) (s : State) : (noteOnset c b s).doors = s.doors := by
  unfold noteOnset; split <;> rfl
@[simp] theorem noteOnset_ann (c : Condition) (b : State) (s : State) : (noteOnset c b s).ann = s.ann := by
  unfold noteOnset; split <;> rfl
@[simp] theorem noteOnset_port (c : Condition) (b : State) (s : State) : (noteOnset c b s).port = s.port := by
  unfold noteOnset; split <;> rfl
@[simp] theorem noteOnset_cls (c : Condition) (b : State) (s : State) : (noteOnset c b s).cls = s.cls := by
  unfold noteOnset; split <;> rfl
@[simp] theorem noteOnset_sline (c : Condition) (b : State) (s : State) : (noteOnset c b s).sline = s.sline := by
  unfold noteOnset; split <;> rfl
@[simp] theorem noteOnset_log (c : Condition) (b : State) (s : State) : (noteOnset c b s).log = s.log := by
  unfold noteOnset; split <;> rfl
@[simp] theorem noteOnset_lines (c : Condition) (b : State) (s : State) : (noteOnset c b s).lines = s.lines := by
  unfold noteOnset; split <;> rfl
@[simp] theorem noteOnset_params (c : Condition) (b : State) (s : State) : (noteOnset c b s).params = s.params := by
  unfold noteOnset; split <;> rfl
@[simp] theorem noteOnset_addrs (c : Condition) (b : State) (s : State) : (noteOnset c b s).addrs = s.addrs := by
  unfold noteOnset; split <;> rfl
@[simp] theorem noteOnset_mgmt (c : Condition) (b : State) (s : State) : (noteOnset c b s).mgmt = s.mgmt := by
  unfold noteOnset; split <;> rfl
@[simp] theorem noteOnset_failures (c : Condition) (b : State) (s : State) : (noteOnset c b s).failures = s.failures := by
  unfold noteOnset; split <;> rfl
@[simp] theorem noteOnset_pending (c : Condition) (b : State) (s : State) : (noteOnset c b s).pending = s.pending := by
  unfold noteOnset; split <;> rfl

@[simp] theorem noteOnset_notes_owners (c : Condition) (b s : State) :
    (noteOnset c b s).notes.owners = s.notes.owners := by
  unfold noteOnset; split <;> rfl

/-- R165: what is noted after a change: what was, and the condition when it has come to hold. -/
theorem noted_noteOnset (c d : Condition) (b s : State) :
    noted (noteOnset c b s) d = (noted s d || (d == c && !holds b c && holds s c)) := by
  unfold noteOnset noted
  by_cases h : (!holds b c && holds s c) = true
  · rw [if_pos h, Bool.and_assoc, h]
    cases c <;> cases d <;> simp [Condition.ctorIdx]
  · rw [if_neg h]
    simp only [Bool.not_eq_true] at h
    rw [Bool.and_assoc, h, Bool.and_false, Bool.or_false]

/-! ### appendLog -/

@[simp] theorem appendLog_powered (k : EventKind) (x : Subject) (d : Detail) (s : State) : (appendLog k x d s).powered = s.powered := by
  simp [appendLog, wakeLine]
@[simp] theorem appendLog_zones (k : EventKind) (x : Subject) (d : Detail) (s : State) : (appendLog k x d s).zones = s.zones := by
  simp [appendLog, wakeLine]
@[simp] theorem appendLog_regime (k : EventKind) (x : Subject) (d : Detail) (s : State) : (appendLog k x d s).regime = s.regime := by
  simp [appendLog, wakeLine]
@[simp] theorem appendLog_seq (k : EventKind) (x : Subject) (d : Detail) (s : State) : (appendLog k x d s).seq = s.seq := by
  simp [appendLog, wakeLine]
@[simp] theorem appendLog_lifts (k : EventKind) (x : Subject) (d : Detail) (s : State) : (appendLog k x d s).lifts = s.lifts := by
  simp [appendLog, wakeLine]
@[simp] theorem appendLog_doors (k : EventKind) (x : Subject) (d : Detail) (s : State) : (appendLog k x d s).doors = s.doors := by
  simp [appendLog, wakeLine]
@[simp] theorem appendLog_ann (k : EventKind) (x : Subject) (d : Detail) (s : State) : (appendLog k x d s).ann = s.ann := by
  simp [appendLog, wakeLine]
@[simp] theorem appendLog_port (k : EventKind) (x : Subject) (d : Detail) (s : State) : (appendLog k x d s).port = s.port := by
  simp [appendLog, wakeLine]
@[simp] theorem appendLog_cls (k : EventKind) (x : Subject) (d : Detail) (s : State) : (appendLog k x d s).cls = s.cls := by
  simp [appendLog, wakeLine]
@[simp] theorem appendLog_log (k : EventKind) (x : Subject) (d : Detail) (s : State) : (appendLog k x d s).log = appendRecord s.log k x d := by
  simp [appendLog, wakeLine]
@[simp] theorem appendLog_lines (k : EventKind) (x : Subject) (d : Detail) (s : State) : (appendLog k x d s).lines = s.lines := by
  simp [appendLog, wakeLine]
@[simp] theorem appendLog_params (k : EventKind) (x : Subject) (d : Detail) (s : State) : (appendLog k x d s).params = s.params := by
  simp [appendLog, wakeLine]
@[simp] theorem appendLog_addrs (k : EventKind) (x : Subject) (d : Detail) (s : State) : (appendLog k x d s).addrs = s.addrs := by
  simp [appendLog, wakeLine]
@[simp] theorem appendLog_mgmt (k : EventKind) (x : Subject) (d : Detail) (s : State) : (appendLog k x d s).mgmt = s.mgmt := by
  simp [appendLog, wakeLine]
@[simp] theorem appendLog_failures (k : EventKind) (x : Subject) (d : Detail) (s : State) : (appendLog k x d s).failures = s.failures := by
  simp [appendLog, wakeLine]
@[simp] theorem appendLog_pending (k : EventKind) (x : Subject) (d : Detail) (s : State) : (appendLog k x d s).pending = s.pending := by
  simp [appendLog, wakeLine]

@[simp] theorem appendLog_notes_owners (k : EventKind) (x : Subject) (d : Detail) (s : State) :
    (appendLog k x d s).notes.owners = s.notes.owners := by
  simp [appendLog, wakeLine]
@[simp] theorem appendLog_sline (k : EventKind) (x : Subject) (d : Detail) (s : State) :
    (appendLog k x d s).sline = { s.sline with
      mode := .brisk
      quietTimer := if s.regime.state = .quiescent then some (ticks 600) else s.sline.quietTimer } := by
  simp [appendLog, wakeLine]

end Machine

end Sys2Proof
end

