-- ==== Sys2Proof/Laws/Within.lean ====
section
/-! SUPPORT. What an operation may do, composed: `Within` is reflexive, transitive and grows with its list, and walks along
a list or a table; then the operations every block shares. -/

namespace Sys2Proof.Safety

-- One proof at a time: the package as one text then compiles within the memory it is given.
set_option Elab.async false

open Sys2Proof.Machine

/-! ### Composition -/

theorem Appends.trans {a b c : EventLog} (h : Appends a b) (k : Appends b c) : Appends a c := by
  induction k with
  | refl => exact h
  | append kind subject d _ ih => exact .append kind subject d ih

theorem Offers.trans {a b c : List QEntry} (h : Offers a b) (k : Offers b c) : Offers a c := by
  induction k with
  | refl => exact h
  | placed e _ room ih => exact .placed e ih room
  | displaced e w _ last less ih => exact .displaced e w ih last less

theorem same_refl (b : Block) (s : State) : same b s s := by
  cases b <;> simp [same]

theorem same_trans {b : Block} {s t u : State} (h : same b s t) (k : same b t u) : same b s u := by
  cases b <;> simp_all [same]

theorem Keeps.refl (bs : List Block) (s : State) : Keeps bs s s :=
  ⟨fun b _ => same_refl b s, .refl _, .refl _, .inl rfl, .inl rfl⟩

theorem stays {α : Type} {a b c x : α} (h : b = a ∨ b = x) (k : c = b ∨ c = x) : c = a ∨ c = x := by
  rcases k with rfl | rfl
  · exact h
  · exact .inr rfl

theorem Keeps.trans {bs : List Block} {s t u : State} (h : Keeps bs s t) (k : Keeps bs t u) : Keeps bs s u :=
  ⟨fun b hb => same_trans (h.only b hb) (k.only b hb), h.log.trans k.log, h.queue.trans k.queue,
    stays h.timeout k.timeout, stays h.mode k.mode⟩

theorem Keeps.mono {bs cs : List Block} {s t : State} (h : Keeps bs s t) (sub : bs ⊆ cs) : Keeps cs s t :=
  ⟨fun b hb => h.only b fun m => hb (sub m), h.log, h.queue, h.timeout, h.mode⟩

theorem Keeps.foldl {α : Type} {bs : List Block} {f : State → α → State} (h : ∀ s a, Keeps bs s (f s a))
    (l : List α) (s : State) : Keeps bs s (l.foldl f s) := by
  induction l generalizing s with
  | nil => exact .refl _ _
  | cons a l ih => exact (h s a).trans (ih _)

theorem Within.refl (bs : List Block) (s : State) : Within bs s s := ⟨.refl bs s, .inl rfl, id, id, .inl rfl⟩

theorem Within.trans {bs : List Block} {s t u : State} (h : Within bs s t) (k : Within bs t u) : Within bs s u := by
  refine ⟨h.toKeeps.trans k.toKeeps, ?_, fun a => k.allClearUp (h.allClearUp a), fun a => k.relockUp (h.relockUp a),
    stays h.quiet k.quiet⟩
  rcases h.regime with h1 | ⟨h1, h2, h3, h4⟩ <;> rcases k.regime with k1 | ⟨k1, k2⟩
  · exact .inl (k1.trans h1)
  · exact .inr ⟨h1 ▸ k1, k2⟩
  · exact .inr ⟨h1, k1.trans h2, k.allClearUp h3, k.relockUp h4⟩
  · exact .inr ⟨h1, k2⟩

theorem Within.mono {bs cs : List Block} {s t : State} (h : Within bs s t) (sub : bs ⊆ cs) : Within cs s t :=
  ⟨h.toKeeps.mono sub, h.regime, h.allClearUp, h.relockUp, h.quiet⟩

/-- An update that leaves the log, the queue and the line mode as they are. -/
theorem Keeps.of_only {bs : List Block} {s t : State} (h : ∀ b, b ∉ bs → same b s t) (log : t.log = s.log)
    (queue : t.port.queue = s.port.queue) (timeout : t.port.timeout = s.port.timeout := by rfl)
    (mode : t.sline.mode = s.sline.mode := by rfl) : Keeps bs s t :=
  ⟨h, log ▸ .refl _, queue ▸ .refl _, .inl timeout, .inl mode⟩

/-- An update that leaves the log, the queue, the regime state and the line mode as they are. -/
theorem Within.of_only {bs : List Block} {s t : State} (h : ∀ b, b ∉ bs → same b s t) (log : t.log = s.log)
    (queue : t.port.queue = s.port.queue) (regime : t.regime.state = s.regime.state)
    (timeout : t.port.timeout = s.port.timeout := by rfl) (mode : t.sline.mode = s.sline.mode := by rfl)
    (quiet : t.sline.quietTimer = s.sline.quietTimer := by rfl)
    (allClear : s.regime.allClearDone = true → t.regime.allClearDone = true := by exact id)
    (relock : s.regime.relockDone = true → t.regime.relockDone = true := by exact id) : Within bs s t :=
  ⟨.of_only h log queue timeout mode, .inl regime, allClear, relock, .inl quiet⟩

theorem Within.foldl {α : Type} {bs : List Block} {f : State → α → State} (h : ∀ s a, Within bs s (f s a))
    (l : List α) (s : State) : Within bs s (l.foldl f s) := by
  induction l generalizing s with
  | nil => exact .refl _ _
  | cons a l ih => exact (h s a).trans (ih _)

theorem Within.forEach {n : Nat} {bs : List Block} {f : Fin n → State → State} (h : ∀ i s, Within bs s (f i s))
    (s : State) : Within bs s (forEach n f s) :=
  Within.foldl (fun s i => h i s) _ s

theorem Within.ite {bs : List Block} {s t u : State} {p : Prop} [Decidable p] (h : Within bs s t) (k : Within bs s u) :
    Within bs s (if p then t else u) := by
  split
  · exact h
  · exact k

/-! ### What a list of blocks leaves alone -/

theorem Keeps.zones {bs : List Block} {s t : State} (h : Keeps bs s t) (m : Block.zones ∉ bs) : t.zones = s.zones :=
  h.only .zones m
theorem Keeps.allClear {bs : List Block} {s t : State} (h : Keeps bs s t) (m : Block.allClear ∉ bs) :
    t.regime.allClearDone = s.regime.allClearDone := h.only .allClear m
theorem Keeps.relock {bs : List Block} {s t : State} (h : Keeps bs s t) (m : Block.relock ∉ bs) :
    t.regime.relockDone = s.regime.relockDone := h.only .relock m
theorem Keeps.seq {bs : List Block} {s t : State} (h : Keeps bs s t) (m : Block.seq ∉ bs) : t.seq = s.seq :=
  h.only .seq m
theorem Keeps.lifts {bs : List Block} {s t : State} (h : Keeps bs s t) (m : Block.lifts ∉ bs) : t.lifts = s.lifts :=
  h.only .lifts m
theorem Keeps.doors {bs : List Block} {s t : State} (h : Keeps bs s t) (m : Block.doors ∉ bs) : t.doors = s.doors :=
  h.only .doors m
theorem Keeps.ann {bs : List Block} {s t : State} (h : Keeps bs s t) (m : Block.ann ∉ bs) : t.ann = s.ann :=
  h.only .ann m
theorem Keeps.cls {bs : List Block} {s t : State} (h : Keeps bs s t) (m : Block.cls ∉ bs) : t.cls = s.cls :=
  h.only .cls m
theorem Keeps.stations {bs : List Block} {s t : State} (h : Keeps bs s t) (m : Block.stations ∉ bs) :
    t.sline.stations = s.sline.stations := h.only .stations m
theorem Keeps.params {bs : List Block} {s t : State} (h : Keeps bs s t) (m : Block.params ∉ bs) : t.params = s.params :=
  h.only .params m
theorem Keeps.addrs {bs : List Block} {s t : State} (h : Keeps bs s t) (m : Block.addrs ∉ bs) : t.addrs = s.addrs :=
  h.only .addrs m
theorem Keeps.mgmt {bs : List Block} {s t : State} (h : Keeps bs s t) (m : Block.mgmt ∉ bs) : t.mgmt = s.mgmt :=
  h.only .mgmt m
theorem Keeps.lines {bs : List Block} {s t : State} (h : Keeps bs s t) (m : Block.lines ∉ bs) : t.lines = s.lines :=
  h.only .lines m
theorem Keeps.supply {bs : List Block} {s t : State} (h : Keeps bs s t) (m : Block.supply ∉ bs) :
    t.powered = s.powered ∧ t.failures = s.failures ∧ t.pending = s.pending := h.only .supply m

/-- Outside RESTORING the regime state stays. -/
theorem Within.state {bs : List Block} {s t : State} (h : Within bs s t) (n : s.regime.state ≠ .restoring) :
    t.regime.state = s.regime.state := by
  rcases h.regime with h | h
  · exact h
  · exact absurd h.1 n

/-! ### The operations every block shares -/

theorem wakeLine_within (bs : List Block) (s : State) : Within bs s (wakeLine s) := by
  refine ⟨⟨fun b _ => by cases b <;> simp [same, wakeLine], .refl _, .refl _, .inl rfl, .inr rfl⟩, .inl rfl, id, id, ?_⟩
  by_cases h : s.regime.state = .quiescent
  · exact .inr (by simp [wakeLine, h])
  · exact .inl (by simp [wakeLine, h])

theorem appendRecord_within (bs : List Block) (k : EventKind) (subject : Subject) (d : Detail) (s : State) :
    Within bs s { s with log := appendRecord s.log k subject d } :=
  ⟨⟨fun b _ => by cases b <;> simp [same], .append _ _ _ (.refl _), .refl _, .inl rfl, .inl rfl⟩, .inl rfl, id, id,
    .inl rfl⟩

/-- The notes of an event are no block. -/
theorem onlyNotes_within (bs : List Block) {s : State} (n : Notes) : Within bs s { s with notes := n } :=
  .of_only (fun b _ => by cases b <;> simp [same]) rfl rfl rfl

theorem beginEvent_within (bs : List Block) (s : State) : Within bs s (beginEvent s) := onlyNotes_within bs _

theorem noteOwner_within (bs : List Block) (a : Byte) (s : State) : Within bs s (noteOwner a s) :=
  onlyNotes_within bs _

theorem noteOnset_within (bs : List Block) (c : Condition) (before s : State) : Within bs s (noteOnset c before s) :=
  .ite (onlyNotes_within bs _) (.refl _ _)

theorem appendLog_within (bs : List Block) (k : EventKind) (subject : Subject) (d : Detail) (s : State) :
    Within bs s (appendLog k subject d s) :=
  (appendRecord_within bs k subject d s).trans ((noteOnset_within bs _ s _).trans (wakeLine_within bs _))

theorem placeEntry_within (bs : List Block) (e : QEntry) (s : State) (room : s.port.queue.length < 32) :
    Within bs s { s with port := placeEntry e s.port } := by
  refine ⟨⟨fun b _ => by cases b <;> simp [same, placeEntry], .refl _, .placed e (.refl _) room, ?_, .inl rfl⟩, .inl rfl,
    id, id, .inl rfl⟩
  by_cases h : s.port.queue = [] ∧ s.port.turn = none
  · exact .inr (by simp [placeEntry, h])
  · exact .inl (by simp only [placeEntry, if_neg h])

theorem displace_within (bs : List Block) (e w : QEntry) (s : State) (last : s.port.queue.getLast? = some w)
    (less : e.cls < w.cls) :
    Within bs s { s with port := { s.port with queue := place e s.port.queue.dropLast } } :=
  ⟨⟨fun b _ => by cases b <;> simp [same], .refl _, .displaced e w (.refl _) last less, .inl rfl, .inl rfl⟩, .inl rfl,
    id, id, .inl rfl⟩

theorem offer_within (bs : List Block) (e : QEntry) (s : State) : Within bs s (offer e s) := by
  unfold offer
  split
  · next h => exact placeEntry_within bs e s h
  · split
    · exact .refl _ _
    · next w hw =>
      split
      · next h => exact (displace_within bs e w s hw h).trans (appendLog_within bs _ _ _ _)
      · exact appendLog_within bs _ _ _ s

theorem queueReport_within (bs : List Block) (dest : Byte) (cls : Nat) (p : Payload) (s : State) :
    Within bs s (queueReport dest cls p s) := offer_within bs _ s

/-- A record logged and a report queued. -/
theorem queue_append_within (bs : List Block) (dest : Byte) (cls : Nat) (p : Payload) (k : EventKind) (subject : Subject)
    (d : Detail) (s : State) : Within bs s (queueReport dest cls p (appendLog k subject d s)) :=
  (appendLog_within bs k subject d s).trans (queueReport_within bs dest cls p _)

theorem joinEarly_within (i : Fin 48) (s : State) : Within [.early] s (joinEarly i s) := by
  unfold joinEarly
  split
  · exact .refl _ _
  · exact .of_only (fun b hb => by cases b <;> simp_all [same]) rfl rfl rfl

theorem beginWrite_within (w : StoreWrite) (s : State) : Within [.mgmt] s (beginWrite w s) :=
  .of_only (fun b hb => by cases b <;> simp_all [same]) rfl rfl rfl

theorem setRx_p_within (r : Rx) (s : State) : Within [.receivers] s (setRx .p r s) :=
  .of_only (fun b hb => by cases b <;> simp_all [same]) rfl rfl rfl

theorem setTrunk_within (l : Line) (t : Trunk) (s : State) : Within [.receivers] s (setTrunk l t s) := by
  cases l <;> exact .of_only (fun b hb => by cases b <;> simp_all [same, setTrunk]) rfl rfl rfl

theorem setRx_within (l : Line) (r : Rx) (s : State) : Within [.receivers] s (setRx l r s) := setTrunk_within l _ s

/-! ### The return to QUIESCENT -/

/-- The parts a return to QUIESCENT changes. -/
def completionBlocks : List Block := [.ann, .allClear]

theorem toQuiescent_within (s : State) (h : s.regime.state = .restoring) (a : s.regime.allClearDone = true)
    (r : s.regime.relockDone = true) : Within [.ann] s { s with regime := { s.regime with state := .quiescent } } :=
  ⟨⟨fun b _ => by cases b <;> simp [same], .refl _, .refl _, .inl rfl, .inl rfl⟩, .inr ⟨h, rfl, a, r⟩, id, id, .inl rfl⟩

theorem fullCountdowns_within (s : State) : Within [.ann] s
    { s with ann := { s.ann with racks := s.ann.racks.map fullCountdown } } :=
  .of_only (fun b hb => by cases b <;> simp_all [same]) rfl rfl rfl

theorem returnQuiescent_within (s : State) (h : s.regime.state = .restoring) (a : s.regime.allClearDone = true)
    (r : s.regime.relockDone = true) : Within [.ann] s (returnQuiescent s) :=
  (toQuiescent_within s h a r).trans ((wakeLine_within _ _).trans
    ((queue_append_within _ _ _ _ _ _ _ _).trans (fullCountdowns_within _)))

theorem setAllClearDone_within (s : State) : Within completionBlocks s (setAllClearDone s) := by
  unfold setAllClearDone
  split
  · exact .refl _ _
  · have h : Within completionBlocks s { s with regime := { s.regime with allClearDone := true } } :=
      .of_only (fun b hb => by cases b <;> simp_all [same, completionBlocks]) rfl rfl rfl
        (allClear := fun _ => rfl)
    simp only
    split
    · next c => exact h.trans (Within.mono (bs := [.ann]) (returnQuiescent_within _ c.1 rfl c.2) (by simp [completionBlocks]))
    · exact h

theorem setRelockDone_within (s : State) : Within [.ann, .relock] s (setRelockDone s) := by
  unfold setRelockDone
  split
  · exact .refl _ _
  · have h : Within [.ann, .relock] s { s with regime := { s.regime with relockDone := true } } :=
      .of_only (fun b hb => by cases b <;> simp_all [same]) rfl rfl rfl (relock := fun _ => rfl)
    simp only
    split
    · next c => exact h.trans (Within.mono (bs := [.ann]) (returnQuiescent_within _ c.1 c.2 rfl) (by simp))
    · exact h

end Sys2Proof.Safety
end

