-- ==== Sys2Proof/Laws/Announce.lean ====
section
/-! SUPPORT. What each operation of the Announcement Scheduler may do: it changes the Scheduler's own records and sets
ALL-CLEAR DONE, and logs and reports. -/

namespace Sys2Proof.Safety

-- One proof at a time: the package as one text then compiles within the memory it is given.
set_option Elab.async false

open Sys2Proof.Machine

/-- What the Scheduler may change. -/
abbrev annBlocks : List Block := completionBlocks

theorem onlyAnn_within {s : State} (a : Announce) : Within annBlocks s { s with ann := a } :=
  .of_only (fun b hb => by cases b <;> simp_all [same, annBlocks, completionBlocks]) rfl rfl rfl

theorem setJob_within (j : Fin 16) (x : Option Job) (s : State) : Within annBlocks s (setJob j x s) := onlyAnn_within _
theorem setChannel_within (k : Fin 2) (c : Channel) (s : State) : Within annBlocks s (setChannel k c s) :=
  onlyAnn_within _
theorem setRack_within (r : Fin 4) (x : Rack) (s : State) : Within annBlocks s (setRack r x s) := onlyAnn_within _
theorem noteRack_within (bs : List Block) (r : Fin 4) (s : State) : Within bs s (noteRack r s) :=
  noteOwner_within _ _ _

theorem setStatus_within (e : Fin 16) (st : PageStatus) (s : State) : Within annBlocks s (setStatus e st s) := by
  unfold setStatus
  extract_lets _ u
  have h : Within annBlocks s u := onlyAnn_within _
  split
  · exact .ite h (h.trans (noteOwner_within _ _ _))
  · exact h

theorem setSourceStatus_within (src : Source) (st : PageStatus) (s : State) :
    Within annBlocks s (setSourceStatus src st s) := by
  cases src <;> first | exact setStatus_within _ _ s | exact .refl _ _

theorem makeOwed_within (s : State) (p : Standing) : Within annBlocks s (makeOwed s p) := by
  unfold makeOwed
  split
  · exact onlyAnn_within _
  · split
    · exact (onlyAnn_within _).trans (setJob_within _ _ _)
    · exact .refl _ _

theorem fillOwed_within (s : State) : Within annBlocks s (fillOwed s) := .foldl makeOwed_within _ s

theorem reportChannel_within (k : Fin 2) (ended : Option EndCause) (s : State) :
    Within annBlocks s (reportChannel k ended s) := queueReport_within _ _ _ _ s

theorem idleChannel_within (k : Fin 2) (s : State) : Within annBlocks s (idleChannel k s) := setChannel_within _ _ s

theorem endPlay_within (k : Fin 2) (cause : EndCause) (s : State) : Within annBlocks s (endPlay k cause s) := by
  have h := Within.foldl (bs := annBlocks) (fun s r => setRack_within r (fullCountdown (s.ann.racks.get r)) s)
    (involved s (s.ann.channels.get k).held) s
  exact h.trans ((reportChannel_within k _ _).trans (idleChannel_within k _))

theorem dropJob_within (j : Fin 16) (s : State) : Within annBlocks s (dropJob j s) :=
  (setJob_within j none s).trans (fillOwed_within _)

theorem dropLive_within (j : Fin 16) (s : State) : Within annBlocks s (dropLive j s) :=
  (onlyAnn_within _).trans (dropJob_within j _)

theorem afterPlay_within (cause : EndCause) (j : Fin 16) (s : State) : Within annBlocks s (afterPlay cause j s) := by
  unfold afterPlay
  split
  · exact .refl _ _
  · simp only
    split
    · split
      · split
        · exact (dropJob_within j s).trans (setAllClearDone_within _)
        · exact dropJob_within j s
      · split <;> exact setJob_within _ _ s
    · split
      · split
        · exact (dropJob_within j s).trans (setAllClearDone_within _)
        · exact dropJob_within j s
      · split <;> exact setJob_within _ _ s
    · exact dropJob_within j s
    · split
      · exact dropLive_within j s
      · exact (setSourceStatus_within _ _ s).trans (dropJob_within j _)
      · exact setJob_within _ _ s
    · split
      · exact dropLive_within j s
      · exact (setJob_within _ _ s).trans (setSourceStatus_within _ _ _)
      · exact setJob_within _ _ s

theorem finishPlay_within (k : Fin 2) (cause : EndCause) (s : State) : Within annBlocks s (finishPlay k cause s) := by
  unfold finishPlay
  split
  · exact endPlay_within k cause s
  · exact (endPlay_within k cause s).trans (afterPlay_within cause _ _)

theorem stopWarm_within (k : Fin 2) (s : State) : Within annBlocks s (stopWarm k s) := by
  unfold stopWarm
  split
  · exact idleChannel_within k s
  · split
    · exact idleChannel_within k s
    · split
      · exact (idleChannel_within k s).trans (dropLive_within _ _)
      · exact (idleChannel_within k s).trans (setJob_within _ _ _)

theorem checkComplete_within (k : Fin 2) (s : State) : Within annBlocks s (checkComplete k s) := by
  unfold checkComplete
  split
  · exact finishPlay_within k .complete s
  · exact .refl _ _

theorem shrink_within (cause : EndCause) (k : Fin 2) (floors : FloorSet) (s : State) :
    Within annBlocks s (shrink cause k floors s) := by
  unfold shrink
  simp only
  split
  · exact .refl _ _
  · split
    · split
      · exact (setChannel_within _ _ s).trans (finishPlay_within k cause _)
      · exact (setChannel_within _ _ s).trans (stopWarm_within k _)
    · exact (setChannel_within _ _ s).trans (checkComplete_within k _)

theorem removeJob_within (j : Fin 16) (s : State) : Within annBlocks s (removeJob j s) := by
  unfold removeJob
  split
  · exact dropJob_within j s
  · split
    · exact (endPlay_within _ _ s).trans (dropJob_within j _)
    · exact (idleChannel_within _ s).trans (dropJob_within j _)

theorem markPlaying_within (k : Fin 2) (c : Channel) (x : Job) (j : Fin 16) (s : State) :
    Within annBlocks s (if x.cls = .tenant then
      setSourceStatus x.source .granted
        (setJob j (some { x with hold := none, pageLimit := some (ticks 120) }) (setChannel k c s))
      else setChannel k c s) := by
  split
  · exact (setChannel_within k c s).trans ((setJob_within _ _ _).trans (setSourceStatus_within _ _ _))
  · exact setChannel_within k c s

theorem beginPlay_within (k : Fin 2) (s : State) : Within annBlocks s (beginPlay k s) := by
  unfold beginPlay
  simp only
  split
  · exact (markPlaying_within k _ _ _ s).trans
      ((Within.foldl (fun s r => noteRack_within _ r s) _ _).trans (reportChannel_within k none _))
  · exact .refl _ _

theorem wakeRack_within (r : Fin 4) (s : State) : Within annBlocks s (wakeRack r s) := by
  unfold wakeRack
  exact .ite ((setRack_within r _ s).trans (noteRack_within _ r _)) (.refl _ _)

theorem startChannel_within (k : Fin 2) (s : State) : Within annBlocks s (startChannel k s) := by
  unfold startChannel
  simp only
  split
  · exact beginPlay_within k s
  · exact (Within.foldl (fun s r => wakeRack_within r s) _ s).trans (setChannel_within k _ _)

/-! ### The arbiter -/

theorem give_within (k : Fin 2) (j : Fin 16) (s : State) : Within annBlocks s (give k j s) := by
  unfold give
  split
  · exact .refl _ _
  · exact (setJob_within j _ s).trans ((setChannel_within k _ _).trans
      ((shrink_within .cut (other k) _ _).trans (startChannel_within k _)))

theorem fillChannel_within {k : Fin 2} {s t : State} (h : fillChannel k s = some t) : Within annBlocks s t := by
  unfold fillChannel at h
  split at h
  · obtain ⟨j, -, rfl⟩ := Option.map_eq_some_iff.mp h
    exact give_within k j s
  · cases h

theorem removeUnplayable_within {s t : State} (h : removeUnplayable s = some t) : Within annBlocks s t := by
  obtain ⟨j, -, rfl⟩ := Option.map_eq_some_iff.mp h
  simp only
  split
  · exact (dropJob_within j s).trans (setAllClearDone_within _)
  · exact dropJob_within j s

theorem arbiterStep_within {s t : State} (h : arbiterStep s = some t) : Within annBlocks s t := by
  unfold arbiterStep at h
  split at h
  · next u hu => cases h; exact removeUnplayable_within hu
  · split at h
    · next u hu => cases h; exact fillChannel_within hu
    · split at h
      · next u hu => cases h; exact fillChannel_within hu
      · obtain ⟨k, -, rfl⟩ := Option.map_eq_some_iff.mp h
        exact stopWarm_within k s

theorem arbiterRun_within (n : Nat) (s : State) : Within annBlocks s (arbiterRun n s) := by
  induction n generalizing s with
  | zero => exact .refl _ _
  | succ n ih =>
    unfold arbiterRun
    split
    · exact .refl _ _
    · next t h => exact (arbiterStep_within h).trans (ih t)

theorem arbiter_within (s : State) : Within annBlocks s (arbiter s) := arbiterRun_within 64 s

/-! ### Standing jobs and the regime -/

theorem realignJob_within (j : Fin 16) (s : State) : Within annBlocks s (realignJob j s) := by
  unfold realignJob
  split
  · exact .refl _ _
  · split
    · exact .refl _ _
    · split
      · exact removeJob_within j s
      · simp only
        split
        · exact (setJob_within j _ s).trans (shrink_within _ _ _ _)
        · exact setJob_within j _ s

theorem makeStanding_within (s : State) (p : Standing) : Within annBlocks s (makeStanding s p) := by
  unfold makeStanding
  split
  · exact .refl _ _
  · split
    · exact (onlyAnn_within _).trans (setJob_within _ _ _)
    · exact (onlyAnn_within _).trans (appendLog_within _ _ _ _ _)

theorem realign_within (s : State) : Within annBlocks s (realign s) := by
  have h := (onlyAnn_within (s := s) { s.ann with owed := s.ann.owed.filter fun p => neededFor s p != 0 }).trans
    (Within.forEach realignJob_within _)
  exact h.trans (.foldl makeStanding_within _ _)

theorem annNotice_within (s : State) : Within annBlocks s (annNotice s) := by
  unfold annNotice
  split
  · exact (realign_within s).trans (arbiter_within _)
  · exact .refl _ _

theorem clearForRegime_within (j : Fin 16) (s : State) : Within annBlocks s (clearForRegime j s) := by
  unfold clearForRegime
  split
  · split
    · simp only
      split
      · exact (removeJob_within j s).trans (setSourceStatus_within _ _ _)
      · exact removeJob_within j s
    · exact .refl _ _
  · exact .refl _ _

theorem wakeFitted_within (s : State) : Within annBlocks s (wakeFitted s) :=
  .forEach (fun r s => .ite (.refl _ _) (wakeRack_within r s)) s

theorem annEntry_within (s : State) : Within annBlocks s (annEntry s) := by
  have h := (Within.forEach clearForRegime_within s).trans (wakeFitted_within _)
  exact h.trans ((realign_within _).trans (arbiter_within _))

theorem clearStanding_within (j : Fin 16) (s : State) : Within annBlocks s (clearStanding j s) := by
  unfold clearStanding
  split
  · exact removeJob_within j s
  · exact .refl _ _

theorem annReset_within (s : State) : Within annBlocks s (annReset s) := by
  have h := (onlyAnn_within (s := s) { s.ann with owed := [] }).trans (Within.forEach clearStanding_within _)
  unfold annReset
  simp only
  split
  · exact h.trans ((setAllClearDone_within _).trans (arbiter_within _))
  · split
    · exact h.trans ((setJob_within _ _ _).trans (arbiter_within _))
    · exact h.trans (arbiter_within _)

/-! ### Racks -/

theorem reportRack_within (r : Fin 4) (x : Rack) (s : State) : Within annBlocks s (reportRack r x s) :=
  queueReport_within _ _ _ _ s

theorem placeRack_within (r : Fin 4) (cause : RackFaultCause) (old x : Rack) (s : State) : Within annBlocks s
    (if x.power = .fault ∧ old.power ≠ .fault then
      reportRack r x (appendLog .rackFault (.rack r) (.rackFault cause) (setRack r x s))
    else if old.power = .fault ∧ x.power ≠ .fault then
      reportRack r x (appendLog .rackFault (.rack r) (.rackFault .cleared) (setRack r x s))
    else setRack r x s) := by
  split
  · exact (setRack_within r _ s).trans ((appendLog_within _ _ _ _ _).trans (reportRack_within r _ _))
  · split
    · exact (setRack_within r _ s).trans ((appendLog_within _ _ _ _ _).trans (reportRack_within r _ _))
    · exact setRack_within r _ s

theorem changeRack_within (r : Fin 4) (cause : RackFaultCause) (x : Rack) (s : State) :
    Within annBlocks s (changeRack r cause x s) := by
  unfold changeRack
  extract_lets old y u
  exact placeRack_within r cause old y s

theorem dropRack_within (r : Fin 4) (s : State) : Within annBlocks s (dropRack r s) :=
  .forEach (fun k s => shrink_within .dropped k _ s) s

theorem takeEnded_within (r : Fin 4) (k : Fin 2) (n : Option Byte) (s : State) :
    Within annBlocks s (takeEnded r k n s) := by
  unfold takeEnded
  simp only
  split
  · exact (setChannel_within k _ s).trans (checkComplete_within k _)
  · exact .refl _ _

theorem lookAgain_within (k : Fin 2) (s : State) : Within annBlocks s (lookAgain k s) := by
  unfold lookAgain
  split
  · exact beginPlay_within k s
  · exact .refl _ _

theorem rackReplyOne_within (r : Fin 4) (f : ReportedPower × Option Byte × Option Byte) (s : State) :
    Within annBlocks s (rackReplyOne r f s) := by
  have h := fun x => (changeRack_within r .cleared x s).trans
    ((takeEnded_within r 0 f.2.1 _).trans (takeEnded_within r 1 f.2.2 _))
  exact (h _).trans (.forEach lookAgain_within _)

theorem rackReply_within (a : Byte) (payload : List Byte) (s : State) : Within annBlocks s (rackReply a payload s) := by
  unfold rackReply
  split
  · exact .refl _ _
  · refine Within.trans ?_ (arbiter_within _)
    refine Within.forEach (fun r s => ?_) s
    split
    · exact rackReplyOne_within r _ s
    · exact .refl _ _

theorem rackLostOne_within (a : Byte) (r : Fin 4) (s : State) : Within annBlocks s
    (if (s.ann.racks.get r).address = a ∧ (s.ann.racks.get r).power ≠ .standby then
      dropRack r (changeRack r .stationLost { s.ann.racks.get r with power := .fault } s) else s) := by
  split
  · exact (changeRack_within r _ _ s).trans (dropRack_within r _)
  · exact .refl _ _

theorem rackLost_within (a : Byte) (s : State) : Within annBlocks s (rackLost a s) :=
  (Within.forEach (rackLostOne_within a) s).trans (arbiter_within _)

theorem countdownEnd_within (r : Fin 4) (s : State) : Within annBlocks s (countdownEnd r s) := by
  unfold countdownEnd
  split
  · exact (setRack_within r _ s).trans (noteRack_within _ r _)
  · exact .refl _ _

theorem standbyNow_within (r : Fin 4) (s : State) : Within annBlocks s (standbyNow r s) :=
  (changeRack_within r _ _ s).trans ((noteRack_within _ r _).trans (arbiter_within _))

theorem reAddress_within (r : Fin 4) (a : Byte) (s : State) : Within annBlocks s (reAddress r a s) := by
  unfold reAddress
  split
  · exact .refl _ _
  · exact (dropRack_within r s).trans ((changeRack_within r _ _ _).trans (arbiter_within _))

/-! ### Timers -/

theorem failRack_within (s : State) (r : Fin 4) : Within annBlocks s (failRack s r) := by
  unfold failRack
  simp only
  split
  · exact .refl _ _
  · exact (changeRack_within r _ _ s).trans (dropRack_within r _)

theorem warmUpEnd_within (k : Fin 2) (s : State) : Within annBlocks s (warmUpEnd k s) := by
  unfold warmUpEnd
  simp only
  split
  · refine Within.trans ?_ (arbiter_within _)
    split
    · exact (Within.foldl failRack_within _ s).trans (beginPlay_within k _)
    · exact Within.foldl failRack_within _ s
  · exact .refl _ _

theorem playEnd_within (k : Fin 2) (s : State) : Within annBlocks s (playEnd k s) := by
  unfold playEnd
  split
  · exact (finishPlay_within k _ s).trans (arbiter_within _)
  · exact .refl _ _

theorem restEnd_within (j : Fin 16) (s : State) : Within annBlocks s (restEnd j s) := by
  unfold restEnd
  split
  · split
    · exact (setJob_within j _ s).trans (arbiter_within _)
    · exact .refl _ _
  · exact .refl _ _

theorem endLive_within (s : State) : Within annBlocks s (endLive s) := by
  unfold endLive
  split
  · exact (onlyAnn_within _).trans ((removeJob_within _ _).trans (arbiter_within _))
  · exact onlyAnn_within _

theorem removePage_within (j : Fin 16) (st : PageStatus) (s : State) : Within annBlocks s (removePage j st s) := by
  unfold removePage
  split
  · exact (removeJob_within j s).trans (setSourceStatus_within _ _ _)
  · exact .refl _ _

theorem pageEnd_within (j : Fin 16) (s : State) : Within annBlocks s (pageEnd j s) := by
  unfold pageEnd
  split
  · exact (removePage_within j _ s).trans (arbiter_within _)
  · exact .refl _ _

theorem holdEnd_within (j : Fin 16) (s : State) : Within annBlocks s (holdEnd j s) := by
  unfold holdEnd
  split
  · exact (removePage_within j _ s).trans ((appendLog_within _ _ _ _ _).trans (arbiter_within _))
  · exact .refl _ _

theorem startTest_within (s : State) : Within annBlocks s (startTest s) := onlyAnn_within _

theorem testPeriodEnd_within (s : State) : Within annBlocks s (testPeriodEnd s) := by
  unfold testPeriodEnd
  split
  · exact .refl _ _
  · refine (startTest_within s).trans ?_
    simp only
    split
    · split
      · exact (setJob_within _ _ _).trans (arbiter_within _)
      · exact appendLog_within _ _ _ _ _
    · exact .refl _ _

/-! ### Live talk and tenant pages -/

theorem makeRoom_within (s : State) : Within annBlocks s (makeRoom s) := by
  unfold makeRoom
  split
  · exact .refl _ _
  · split
    · exact .refl _ _
    · split
      · exact .refl _ _
      · simp only
        split
        · exact (setJob_within _ _ s).trans (onlyAnn_within _)
        · split
          · exact (setJob_within _ _ s).trans (appendLog_within _ _ _ _ _)
          · split
            · exact (setJob_within _ _ s).trans ((appendLog_within _ _ _ _ _).trans (setSourceStatus_within _ _ _))
            · exact setJob_within _ _ s

theorem liveTalkStart_within (floors : FloorSet) (s : State) : Within annBlocks s (liveTalkStart floors s).2 := by
  unfold liveTalkStart
  simp only
  split
  · exact .refl _ _
  · split
    · exact .refl _ _
    · split
      · exact makeRoom_within s
      · exact (makeRoom_within s).trans ((setJob_within _ _ _).trans ((onlyAnn_within _).trans
          ((shrink_within .cut 0 _ _).trans ((setChannel_within _ _ _).trans
            ((shrink_within .cut 1 _ _).trans ((startChannel_within _ _).trans (arbiter_within _)))))))

theorem liveTalkEnd_within (s : State) : Within annBlocks s (liveTalkEnd s).2 := by
  unfold liveTalkEnd
  split
  · exact endLive_within s
  · exact .refl _ _

theorem judgeRequest_within (e : Fin 16) (allowed floors : FloorSet) (s : State) :
    Within annBlocks s (judgeRequest e allowed floors s) := by
  unfold judgeRequest
  simp only
  split
  · exact setStatus_within _ _ s
  · split
    · exact (setStatus_within _ _ s).trans (appendLog_within _ _ _ _ _)
    · exact (setStatus_within _ _ s).trans ((setJob_within _ _ _).trans (arbiter_within _))

theorem release_within (e : Fin 16) (st : PageStatus) (s : State) : Within annBlocks s (release e st s) := by
  unfold release
  split
  · exact .refl _ _
  · exact setStatus_within _ _ s
  · exact setStatus_within _ _ s
  · split
    · exact (removeJob_within _ s).trans ((setStatus_within _ _ _).trans (arbiter_within _))
    · exact setStatus_within _ _ s
  · split
    · exact (removeJob_within _ s).trans ((setStatus_within _ _ _).trans (arbiter_within _))
    · exact setStatus_within _ _ s

theorem consoleReply_within (a : Byte) (payload : List Byte) (s : State) :
    Within annBlocks s (consoleReply a payload s) := by
  unfold consoleReply
  split
  · exact .refl _ _
  · split
    · split
      · split
        · exact judgeRequest_within _ _ _ s
        · exact .refl _ _
      · split
        · exact release_within _ _ s
        · exact .refl _ _
    · exact .refl _ _

theorem consoleLost_within (a : Byte) (s : State) : Within annBlocks s (consoleLost a s) := by
  unfold consoleLost
  split
  · exact .refl _ _
  · split
    · exact (removeJob_within _ s).trans ((setStatus_within _ _ _).trans (arbiter_within _))
    · exact setStatus_within _ _ s

theorem takeFloorsOut_within (floors : FloorSet) (s : State) : Within annBlocks s (takeFloorsOut floors s) :=
  (onlyAnn_within _).trans (.forEach (fun k s => shrink_within .cut k floors s) _)

end Sys2Proof.Safety
end

