-- ==== Sys2Proof/Laws/Doors.lean ====
section
/-! SUPPORT. What each operation of the Stair Door Unit may do: it changes the Unit's own records, and logs and reports. -/

namespace Sys2Proof.Safety

-- One proof at a time: the package as one text then compiles within the memory it is given.
set_option Elab.async false

open Sys2Proof.Machine

theorem setPoint_within (i : Fin 128) (p : DoorPoint) (s : State) : Within [.doors] s (setPoint i p s) :=
  .of_only (fun b hb => by cases b <;> simp_all [same]) rfl rfl rfl

theorem reportPoint_within (bs : List Block) (i : Fin 128) (p : DoorPoint) (s : State) : Within bs s (reportPoint i p s) :=
  queueReport_within bs _ _ _ s

theorem logDoorFault_within (bs : List Block) (i : Fin 128) (old new : DoorPoint) (cause : DoorFaultCause) (s : State) :
    Within bs s (logDoorFault i old new cause s) :=
  .ite (appendLog_within bs _ _ _ s) (.ite (appendLog_within bs _ _ _ s) (.refl _ _))

theorem changePoint_within (i : Fin 128) (cause : DoorFaultCause) (old new : DoorPoint) (s : State) :
    Within [.doors] s (changePoint i cause old new s) := by
  have h := (setPoint_within i new s).trans (logDoorFault_within _ i old new cause _)
  exact .ite (h.trans (reportPoint_within _ _ _ _)) h

theorem doorReply_within (a : Byte) (payload : List Byte) (s : State) : Within [.doors] s (doorReply a payload s) := by
  unfold doorReply
  refine Within.forEach (fun o s => ?_) s
  cases feedbackAt payload o with
  | none => exact .refl _ _
  | some f =>
    refine Within.forEach (fun i s => ?_) s
    split
    · split
      · exact changePoint_within _ _ _ _ s
      · exact .refl _ _
    · exact .refl _ _

theorem eachPoint_within (cause : DoorFaultCause) (f : State → DoorPoint → DoorPoint) (s : State) :
    Within [.doors] s (eachPoint cause f s) := by
  unfold eachPoint
  refine Within.forEach (fun i s => ?_) s
  split
  · exact changePoint_within _ _ _ _ s
  · exact .refl _ _

theorem doorEntry_within (s : State) : Within [.doors] s (doorEntry s) := by
  unfold doorEntry
  refine Within.trans ?_ ((eachPoint_within _ _ _).trans (eachPoint_within _ _ _))
  exact .of_only (fun b hb => by cases b <;> simp_all [same]) rfl rfl rfl

theorem doorNotice_within (changed : FloorSet) (s : State) : Within [.doors] s (doorNotice changed s) :=
  .ite (eachPoint_within _ _ s) (.refl _ _)

theorem doorReset_within (s : State) : Within [.doors] s (doorReset s) :=
  .of_only (fun b hb => by cases b <;> simp_all [same, doorReset]) rfl rfl rfl

theorem relockPoint_within (i : Fin 128) (p : DoorPoint) (s : State) : Within [.doors] s (relockPoint i p s) :=
  .ite (changePoint_within _ _ _ _ s)
    ((setPoint_within i _ s).trans ((appendLog_within _ _ _ _ _).trans (reportPoint_within _ _ _ _)))

theorem relockAll_within (s : State) : Within [.doors] s (relockAll s) := by
  unfold relockAll
  refine Within.trans ?_ (.forEach (fun i s => ?_) _)
  · exact .of_only (fun b hb => by cases b <;> simp_all [same]) rfl rfl rfl
  · split
    · exact .ite (relockPoint_within _ _ s) (.refl _ _)
    · exact .refl _ _

theorem mismatchExpiry_within (i : Fin 128) (s : State) : Within [.doors] s (mismatchExpiry i s) := by
  unfold mismatchExpiry
  split
  · exact .ite (changePoint_within _ _ _ _ s) (setPoint_within _ _ s)
  · exact .refl _ _

theorem testRelease_within (i : Fin 128) (p : DoorPoint) (duration : Nat) (s : State) :
    Within [.doors] s (testRelease i p duration s) := changePoint_within _ _ _ _ s

theorem testExpiry_within (i : Fin 128) (s : State) : Within [.doors] s (testExpiry i s) := by
  unfold testExpiry
  split
  · refine .ite (.refl _ _) ?_
    simp only
    exact .ite ((setPoint_within i _ s).trans (relockPoint_within _ _ _)) (setPoint_within i _ s)
  · exact .refl _ _

theorem doorsLost_within (a : Byte) (s : State) : Within [.doors] s (doorsLost a s) := eachPoint_within _ _ s

end Sys2Proof.Safety
end

