-- ==== Sys2Proof/Laws/Lifts.lean ====
section
/-! SUPPORT. What each operation of the Lift Recall Unit may do: it changes the Unit's own records, and logs and reports. -/

namespace Sys2Proof.Safety

-- One proof at a time: the package as one text then compiles within the memory it is given.
set_option Elab.async false

open Sys2Proof.Machine

theorem setCar_within (i : Fin 8) (c : Car) (s : State) : Within [.lifts] s (setCar i c s) :=
  .of_only (fun b hb => by cases b <;> simp_all [same]) rfl rfl rfl

theorem placeCar_within (i : Fin 8) (c c' : Car) (s : State) : Within [.lifts] s (placeCar i c c' s) := by
  have h := (setCar_within i c' s).trans (noteOnset_within _ .carOverdueOrStranded s _)
  exact .ite h (h.trans (noteOwner_within _ _ _))

theorem announceCar_within (bs : List Block) (i : Fin 8) (c : Car) (s : State) : Within bs s (announceCar i c s) :=
  queue_append_within bs _ _ _ _ _ _ s

theorem changeCar_within (i : Fin 8) (f : Car → Car) (s : State) : Within [.lifts] s (changeCar i f s) := by
  unfold changeCar
  split
  · exact .refl _ _
  · simp only
    exact .ite ((placeCar_within i _ _ s).trans (announceCar_within _ _ _ _)) (placeCar_within i _ _ s)

theorem chooseBank_within (entry : Bool) (b : Fin 2) (s : State) : Within [.lifts] s (chooseBank entry b s) := by
  unfold chooseBank
  refine Within.trans ?_ (.forEach (fun i s => changeCar_within i _ s) _)
  exact .of_only (fun b hb => by cases b <;> simp_all [same]) rfl rfl rfl

theorem retargetCar_within (i : Fin 8) (s : State) : Within [.lifts] s (retargetCar i s) := changeCar_within i _ s

theorem shutdownCar_within (i : Fin 8) (s : State) : Within [.lifts] s (shutdownCar i s) := changeCar_within i _ s

theorem enterCar_within (i : Fin 8) (s : State) : Within [.lifts] s (enterCar i s) := changeCar_within i _ s

theorem liftEntry_within (s : State) : Within [.lifts] s (liftEntry s) :=
  (Within.forEach (chooseBank_within true) s).trans ((Within.forEach enterCar_within _).trans
    ((Within.forEach retargetCar_within _).trans (.forEach shutdownCar_within _)))

theorem liftZoneChange_within (s : State) : Within [.lifts] s (liftZoneChange s) := by
  unfold liftZoneChange
  refine (Within.forEach (chooseBank_within false) s).trans (Within.trans ?_ (.forEach shutdownCar_within _))
  exact .forEach (fun i u => .ite (retargetCar_within i u) (.refl _ _)) _

theorem takeCarReport_within (i : Fin 8) (r : CarReport) (s : State) : Within [.lifts] s (takeCarReport i r s) := by
  unfold takeCarReport
  exact .ite ((changeCar_within i _ s).trans (shutdownCar_within i _)) (changeCar_within i _ s)

theorem carReply_within (online : Bool) (i : Fin 8) (rs : List CarReport) (s : State) :
    Within [.lifts] s (carReply online i rs s) := by
  unfold carReply
  split
  · exact .refl _ _
  · exact .ite (changeCar_within i _ s) (.foldl (fun s r => takeCarReport_within i r s) _ s)

theorem liftReply_within (online : Bool) (a : Byte) (payload : List Byte) (s : State) :
    Within [.lifts] s (liftReply online a payload s) := by
  unfold liftReply
  extract_lets reports
  refine Within.forEach (fun idx s => Within.forEach (fun i s => ?_) s) s
  split
  · exact .refl _ _
  · split
    · exact carReply_within online i _ s
    · exact .refl _ _

theorem recallExpiry_within (i : Fin 8) (s : State) : Within [.lifts] s (recallExpiry i s) := changeCar_within i _ s

theorem liftLost_within (a : Byte) (s : State) : Within [.lifts] s (liftLost a s) :=
  .forEach (fun i s => changeCar_within i _ s) s

theorem freeBank_within (b : Fin 2) (s : State) :
    Within [.lifts] s (forEach 8 (fun i => changeCar i fun c => if releasable b c then freeCar c else c) s) :=
  Within.foldl (fun s i => changeCar_within i _ s) _ s

theorem liftRelease_within (b : Fin 2) (s : State) : Within [.lifts] s (liftRelease b s).2 := by
  unfold liftRelease
  by_cases h : s.regime.state = .active
  · rw [if_pos h]; exact .refl _ _
  · rw [if_neg h]
    dsimp only
    exact freeBank_within b s

end Sys2Proof.Safety
end

