-- ==== Sys2Proof/Laws/Lines.lean ====
section
/-! SUPPORT. What the Frame Classifier, the Services Line Scheduler and the end of an event may do. -/

namespace Sys2Proof.Safety

-- One proof at a time: the package as one text then compiles within the memory it is given.
set_option Elab.async false

open Sys2Proof.Machine

/-! ### The Frame Classifier -/

theorem onlyCls_within {s : State} (x : Classifier) : Within [.cls] s { s with cls := x } :=
  .of_only (fun b hb => by cases b <;> simp_all [same]) rfl rfl rfl

theorem offerForward_within (f : Frame) (s : State) : Within [.cls] s (offerForward f s) := by
  unfold offerForward
  split
  · exact appendLog_within _ _ _ _ s
  · exact onlyCls_within _

theorem forwardExpiry_within (i : Nat) (s : State) : Within [.cls] s (forwardExpiry i s) := by
  unfold forwardExpiry
  split
  · exact .refl _ _
  · split
    · exact onlyCls_within _
    · exact (onlyCls_within _).trans (queue_append_within _ _ _ _ _ _ _ _)

theorem capture_within (k : Fin 4) (i : Fin 32) (f : Frame) (s : State) : Within [.cls] s (capture k i f s) :=
  onlyCls_within _

theorem cross_within (f : Frame) (s : State) : Within [.cls] s (cross f s) := by
  unfold cross
  split
  · exact offerForward_within f s
  · exact .refl _ _

theorem act_within (i : Fin 32) (a : FilterAction) (f : Frame) (s : State) : Within [.cls] s (act i a f s) := by
  unfold act
  split
  · exact cross_within f s
  · exact (appendLog_within _ _ _ _ s).trans (cross_within f _)
  · split
    · split
      · exact offerForward_within f s
      · exact appendLog_within _ _ _ _ s
    · exact .refl _ _
  · exact .refl _ _
  · exact capture_within _ i f s
  · exact (capture_within _ i f s).trans (cross_within f _)

theorem filterFrame_within (f : Frame) (s : State) : Within [.cls] s (filterFrame f s) := by
  unfold filterFrame
  split
  · exact act_within _ _ f s
  · split
    · exact cross_within f s
    · exact .refl _ _

/-! ### The Services Line Scheduler -/

theorem takeRate_within (l : Line) (s : State) : Within [.receivers] s (takeRate l s) := by
  unfold takeRate
  split
  · exact setTrunk_within l _ s
  · exact .refl _ _

theorem setTxn_within (t : Option Txn) (s : State) : Within [.txn] s { s with sline := { s.sline with txn := t } } :=
  .of_only (fun b hb => by cases b <;> simp_all [same]) rfl rfl rfl

theorem sendPoll_within (i : Fin 48) (s : State) : Within [.txn, .early] s (sendPoll i s) := by
  unfold sendPoll
  split
  · exact .refl _ _
  · exact .of_only (fun b hb => by cases b <;> simp_all [same]) rfl rfl rfl

theorem sendForward_within (i : Nat) (e : Forward) (s : State) : Within [.txn, .cls] s (sendForward i e s) :=
  .of_only (fun b hb => by cases b <;> simp_all [same, sendForward]) rfl rfl rfl

theorem setPointer_within (p : Option (Fin 48)) (s : State) :
    Within [.txn] s { s with sline := { s.sline with pointer := p } } :=
  .of_only (fun b hb => by cases b <;> simp_all [same]) rfl rfl rfl

/-- What the start of a transaction changes. -/
abbrev startBlocks : List Block := [.txn, .early, .cls, .receivers]

theorem chooseTransaction_within (s : State) : Within startBlocks s (chooseTransaction s) := by
  unfold chooseTransaction
  split
  · exact (sendForward_within _ _ s).mono (by simp)
  · split
    · exact (sendPoll_within _ s).mono (by simp)
    · split
      · exact ((setPointer_within _ s).mono (by simp)).trans ((sendPoll_within _ _).mono (by simp))
      · exact .refl _ _

theorem nextTxn_within (s : State) : Within startBlocks s (nextTxn s) := by
  unfold nextTxn
  split
  · exact .refl _ _
  · extract_lets t
    have h : Within startBlocks s t := chooseTransaction_within s
    split
    · exact h.trans ((setTrunk_within .s _ t).mono (by simp))
    · exact h

theorem setStation_within (i : Fin 48) (x : Option Station) (s : State) : Within [.stations] s (setStation i x s) :=
  .of_only (fun b hb => by cases b <;> simp_all [same]) rfl rfl rfl

theorem reportStation_within (bs : List Block) (i : Fin 48) (x : Station) (s : State) :
    Within bs s (reportStation i x s) := queueReport_within bs _ _ _ s

/-- What the owners of the stations change. -/
abbrev ownerBlocks : List Block := [.lifts, .doors, .ann, .allClear]

theorem deliver_within (kind : StationKind) (online : Bool) (src : Byte) (payload : List Byte) (s : State) :
    Within ownerBlocks s (deliver kind online src payload s) := by
  unfold deliver
  split
  · exact (liftReply_within _ _ _ s).mono (by simp)
  · exact (doorReply_within _ _ s).mono (by simp)
  · exact (rackReply_within _ _ s).mono (by simp [annBlocks, completionBlocks])
  · exact (consoleReply_within _ _ s).mono (by simp [annBlocks, completionBlocks])

theorem notifyLost_within (st : Station) (s : State) : Within ownerBlocks s (notifyLost st s) := by
  unfold notifyLost
  split
  · exact (liftLost_within _ s).mono (by simp)
  · exact (doorsLost_within _ s).mono (by simp)
  · exact (rackLost_within _ s).mono (by simp [annBlocks, completionBlocks])
  · exact (consoleLost_within _ s).mono (by simp [annBlocks, completionBlocks])

/-- What the end of a poll changes. -/
abbrev pollBlocks : List Block := .stations :: ownerBlocks

theorem online_within (i : Fin 48) (st st' : Station) (s : State) : Within [.stations] s
    (if st.lost = true then
      reportStation i st' (appendLog .stationOnline (.stationRecord i) (.station st.address st.kind) (setStation i (some st') s))
      else setStation i (some st') s) := by
  split
  · exact (setStation_within i _ s).trans ((appendLog_within _ _ _ _ _).trans (reportStation_within _ i st' _))
  · exact setStation_within i _ s

theorem pollAnswered_within (i : Fin 48) (src : Byte) (payload : List Byte) (s : State) :
    Within pollBlocks s (pollAnswered i src payload s) := by
  unfold pollAnswered
  split
  · exact .refl _ _
  · next st _ =>
    extract_lets st' online u v
    have h : Within [.stations] s v := online_within i _ st' s
    exact (h.mono (by simp)).trans ((deliver_within st.kind online src payload v).mono (by simp))

theorem pollUnanswered_within (i : Fin 48) (s : State) : Within pollBlocks s (pollUnanswered i s) := by
  unfold pollUnanswered
  split
  · exact .refl _ _
  · split
    · exact .refl _ _
    · split
      · exact (setStation_within i _ s).mono (by simp)
      · extract_lets st'
        exact ((setStation_within i _ s).mono (by simp)).trans ((appendLog_within _ _ _ _ _).trans
          ((reportStation_within _ i st' _).trans ((notifyLost_within st' _).mono (by simp))))

theorem dropOnLine_within (s : State) : Within [.cls] s (dropOnLine s) := onlyCls_within _

theorem forwardAnswered_within (payload : List Byte) (s : State) : Within [.cls] s (forwardAnswered payload s) := by
  unfold forwardAnswered
  split
  · exact .refl _ _
  · exact (dropOnLine_within s).trans (queueReport_within _ _ _ _ _)

theorem forwardUnanswered_within (s : State) : Within [.cls] s (forwardUnanswered s) := by
  unfold forwardUnanswered
  split
  · exact .refl _ _
  · exact (dropOnLine_within s).trans (queueReport_within _ _ _ _ _)

/-- What the end of a transaction changes. -/
abbrev endBlocks : List Block := .txn :: .cls :: .receivers :: pollBlocks

theorem endTxn_within (answer : Option (List Byte)) (s : State) : Within endBlocks s (endTxn answer s) := by
  unfold endTxn
  split
  · exact .refl _ _
  · extract_lets _ u
    have h : Within endBlocks s u := (setTxn_within none s).mono (by simp)
    split
    · exact h.trans ((pollAnswered_within _ _ _ u).mono (by simp))
    · exact h.trans ((pollUnanswered_within _ u).mono (by simp))
    · exact h
    · exact h.trans ((forwardAnswered_within _ u).mono (by simp))
    · exact h.trans ((forwardUnanswered_within u).mono (by simp))

theorem takeReply_within (h : Hdr) (kind : Byte) (payload : List Byte) (s : State) :
    Within endBlocks s (takeReply h kind payload s) := by
  unfold takeReply
  extract_lets u
  have k : Within endBlocks s u := (setRx_within .s .hunt s).mono (by simp)
  split
  · exact k
  · exact k.trans (endTxn_within _ u)

theorem closeWindow_within (s : State) : Within endBlocks s (closeWindow s) := by
  unfold closeWindow
  split
  · exact .refl _ _
  · split
    · exact (setTxn_within _ s).mono (by simp)
    · exact endTxn_within none s

theorem openWindow_within (s : State) : Within [.txn, .receivers] s (openWindow s) := by
  unfold openWindow
  split
  · exact .refl _ _
  · exact ((setTxn_within _ s).mono (by simp)).trans ((setRx_within .s _ _).mono (by simp))

theorem markCandidate_within (s : State) : Within [.txn] s (markCandidate s) := by
  unfold markCandidate
  split
  · exact .refl _ _
  · split
    · exact setTxn_within _ s
    · exact .refl _ _

theorem discarded_within (l : Line) (s : State) : Within endBlocks s (discarded l s) := by
  cases l with
  | p => exact .refl _ _
  | s =>
    unfold discarded
    dsimp only
    split
    · exact endTxn_within none s
    · exact .refl _ _

/-! ### The receivers (R119) and the gaps of a turn (R128)

A character heard in a gap of a turn abandons the turn, which `breakTurn_gap` says whole; elsewhere the receivers keep the
turn, the report queue and the turn timeout. -/

/-- All that a character heard in a gap of the turn does to the turn (R128, R129). -/
theorem breakTurn_gap {s : State} (h : inGap s = true) :
    breakTurn s = { s with port := { s.port with
      queue := unmark s.port.queue, turn := none, timeout := timeoutAfter (unmark s.port.queue) } } := by
  rw [breakTurn, if_pos h]
  rfl

theorem breakTurn_no_gap {s : State} (h : inGap s = false) : breakTurn s = s := by
  rw [breakTurn, h]
  rfl

/-- All that the start of a frame does in a gap of the turn (R126, R127, R119). -/
theorem startFrame_gap {t : Turn} {s : State} (h : s.port.turn = some t) (g : t.frame = none) :
    startFrame s = takeFrame t (setRx .p .hunt s) := by
  simp [startFrame, h, g]

theorem startFrame_no_gap {s : State} (h : inGap s = false) : startFrame s = s := by
  unfold startFrame
  unfold inGap at h
  cases e : s.port.turn <;> simp_all

/-- The frame taken from a queue that holds an entry, within the limit (R126). -/
theorem takeFrame_report {t : Turn} {s : State} {e : QEntry} {rest : List QEntry} (h : s.port.queue = e :: rest)
    (n : t.sent < s.params.framesPerTurn) :
    takeFrame t s = { s with port := { s.port with
      queue := { e with sending := true } :: rest, turn := some { t with frame := some (.report e) } } } := by
  simp [takeFrame, n, h]

/-- The frame taken when the queue is empty or the limit has been reached (R126, R127). -/
theorem takeFrame_turnEnd {t : Turn} {s : State} (h : s.params.framesPerTurn ≤ t.sent ∨ s.port.queue = []) :
    takeFrame t s =
      { s with port := { s.port with turn := some { t with
          frame := some (.turnEnd s.port.queue.length (decide (s.params.queueMark ≤ s.port.queue.length))) } } } := by
  have e : (if t.sent < s.params.framesPerTurn then s.port.queue else []) = [] := by
    split
    · exact h.resolve_left (by omega)
    · rfl
  unfold takeFrame
  rw [e]

/-- The start of a frame marks the entry it takes, and changes no entry otherwise. -/
theorem startFrame_queue (s : State) : unmark (startFrame s).port.queue = unmark s.port.queue := by
  unfold startFrame
  split
  · split
    · rfl
    · next t _ _ =>
      unfold takeFrame
      split
      · next e rest h =>
        have k : s.port.queue = e :: rest := by
          split at h
          · exact h
          · cases h
        simp [unmark, k]
      · rfl
  · rfl

/-- The start of a frame changes the turn, the receiver and the marks of the queue alone. -/
theorem startFrame_same {b : Block} (h : b ∉ [Block.turn, .receivers]) (s : State) : same b s (startFrame s) := by
  unfold startFrame takeFrame
  repeat' split
  all_goals cases b <;> simp_all [same, setRx, setTrunk]

theorem inGap_setRx (l : Line) (r : Rx) (s : State) : inGap (setRx l r s) = inGap s := by
  cases l <;> rfl

theorem transmitting_not_gap {s : State} (h : transmitting s .p = true) : inGap s = false := by
  unfold transmitting at h
  unfold inGap
  cases e : s.port.turn <;> simp_all

/-- What a receiver makes of an event, from what it makes of one that it is not held for. -/
theorem receive_within {bs : List Block} {l : Line} {f : State → State} {s : State} (m : Block.receivers ∈ bs)
    (h : Within bs s (f s)) : Within bs s (receive l f s) :=
  .ite ((setRx_within l .hunt s).mono (by simpa using m)) h

theorem noteHeard_within (bs : List Block) {l : Line} {s : State} (h : l = .p → inGap s = false) :
    Within bs s (noteHeard l s) := by
  cases l with
  | p =>
    rw [noteHeard, breakTurn_no_gap (h rfl)]
    exact .refl _ _
  | s => exact .refl _ _

theorem beginFrame_within {l : Line} (b : Byte) {s : State} (h : l = .p → inGap s = false) :
    Within [.txn, .receivers] s (beginFrame l b s) := by
  refine receive_within (by simp) ?_
  split
  · cases l with
    | p =>
      dsimp only
      rw [breakTurn_no_gap ((inGap_setRx .p _ s).trans (h rfl))]
      exact (setRx_within .p _ s).mono (by simp)
    | s => exact ((setRx_within .s _ s).mono (by simp)).trans ((markCandidate_within _).mono (by simp))
  · exact .refl _ _

theorem hearInHunt_within {l : Line} {s : State} (h : l = .p → inGap s = false) :
    Within [.receivers] s (hearInHunt l s) :=
  receive_within (by simp) (.ite (noteHeard_within _ h) (.refl _ _))

theorem huntDiscarded_within (l : Line) (r : Rx) (s : State) : Within endBlocks s (discarded l (setRx l r s)) :=
  ((setRx_within l r s).mono (by cases l <;> simp)).trans (discarded_within l _)

theorem hearBroken_within {l : Line} {s : State} (h : l = .p → inGap s = false) :
    Within endBlocks s (hearBroken l s) := by
  refine receive_within (by simp) ?_
  split
  · exact (huntDiscarded_within l _ s).trans (noteHeard_within _ fun e => by
      subst e
      exact (inGap_setRx .p _ s).trans (h rfl))
  · exact ((setRx_within l _ s).mono (by simp)).trans (noteHeard_within _ fun e => (inGap_setRx l _ s).trans (h e))

theorem hearLong_within (l : Line) (s : State) : Within endBlocks s (hearLong l s) := by
  refine receive_within (by simp) ?_
  split
  · exact huntDiscarded_within l _ s
  · exact .refl _ _

theorem takeBadFrame_within (l : Line) (s : State) : Within endBlocks s (takeBadFrame l s) := huntDiscarded_within l _ s

theorem fallSilent_within (l : Line) (s : State) : Within endBlocks s (fallSilent l s) := by
  refine receive_within (by simp) ?_
  split
  · exact (huntDiscarded_within l _ s).trans ((takeRate_within l _).mono (by simp))
  · exact ((setRx_within l _ s).mono (by simp)).trans ((takeRate_within l _).mono (by simp))

theorem rejectCandidate_within (cause : RejectCause) (s : State) : Within endBlocks s (rejectCandidate cause s) := by
  unfold rejectCandidate
  split
  · exact .refl _ _
  · exact ((setRx_within .s _ s).mono (by simp)).trans (endTxn_within none _)

theorem reportChanges_within (before s : State) : Within [.early] s (reportChanges before s) := by
  unfold reportChanges
  extract_lets changed inOrder t
  have h : Within [.early] s t := .ite (.refl _ _) (.foldl (fun s i => joinEarly_within i s) _ s)
  exact h.trans (onlyNotes_within _ _)

/-! ### The end of an event -/

theorem settleLines_within (before s : State) : Within [.lines] s (settleLines before s) :=
  .of_only (fun b hb => by cases b <;> simp_all [same]) rfl rfl rfl

/-- The parts the end of an event may change. -/
abbrev finishBlocks : List Block := [.early, .lines]

theorem finish_within (before s : State) : Within finishBlocks s (finish before s) :=
  ((reportChanges_within before s).mono (by simp)).trans ((settleLines_within before _).mono (by simp))

/-- The end of an event leaves the event log as it is. -/
theorem joinEarly_log (i : Fin 48) (s : State) : (joinEarly i s).log = s.log := by
  unfold joinEarly
  split <;> rfl

theorem foldl_keeps {α β : Type} (g : State → β) {f : State → α → State} (h : ∀ s a, g (f s a) = g s) (l : List α)
    (s : State) : g (l.foldl f s) = g s := by
  induction l generalizing s with
  | nil => rfl
  | cons a l ih => exact (ih _).trans (h s a)

theorem joinEarly_sline (i : Fin 48) (s : State) :
    joinEarly i s = { s with sline := { s.sline with early := (joinEarly i s).sline.early } } := by
  unfold joinEarly
  split <;> rfl

theorem reportChanges_eq (before s : State) :
    reportChanges before s = { s with
      sline := { s.sline with early := (reportChanges before s).sline.early }
      notes := { s.notes with owners := [] } } := by
  have h : ∀ (l : List (Fin 48)) (u : State), l.foldl (fun s i => joinEarly i s) u =
      { u with sline := { u.sline with early := (l.foldl (fun s i => joinEarly i s) u).sline.early } } := by
    intro l
    induction l with
    | nil => intro u; rfl
    | cons i l ih =>
      intro u
      rw [List.foldl_cons, ih, joinEarly_sline]
  unfold reportChanges
  extract_lets changed inOrder t
  have e : t = { s with sline := { s.sline with early := t.sline.early } } := by
    show (if changed = [] then s else _) = _
    by_cases c : changed = []
    · simp only [t, if_pos c]
    · simp only [t, if_neg c]
      exact h _ s
  have k : ∀ (u : State) (l : List (Fin 48)), u = { s with sline := { s.sline with early := l } } →
      ({ u with notes := { u.notes with owners := [] } } : State) = { s with
        sline := { s.sline with early := l }
        notes := { s.notes with owners := [] } } := by
    intro u l hu
    rw [hu]
  exact k t _ e

/-- All that the end of an event does: the early-poll list and the common lines are brought up to date, and nothing stays
noted. -/
theorem finish_eq (before s : State) :
    finish before s =
      { s with
        lines := (finish before s).lines
        sline := { s.sline with early := (finish before s).sline.early }
        notes := { onsets := 0, owners := [] } } := by
  unfold finish settleLines
  rw [reportChanges_eq]

/-- The parts of the state that the content of a poll is taken from (R153). -/
def SamePolls (s t : State) : Prop :=
  t.lifts = s.lifts ∧ t.doors = s.doors ∧ t.ann = s.ann ∧ t.seq.floors = s.seq.floors ∧ t.params = s.params ∧
    t.regime.state = s.regime.state ∧
    ∀ i, (t.sline.stations.get i).map (fun x => (x.address, x.kind)) =
      (s.sline.stations.get i).map fun x => (x.address, x.kind)

theorem pollContent_congr {s t : State} (h : SamePolls s t) (st : Station) : pollContent t st = pollContent s st := by
  obtain ⟨h1, h2, h3, h4, h5, h6, -⟩ := h
  have c : carCommand t = carCommand s := by
    funext x
    simp [carCommand, h1, h6]
  cases k : st.kind <;>
    simp [pollContent, k, liftCommand, c, outputState, rackContent, rackPoll, rackFloors, inUse, routedTo, playLine,
      channelJob, consoleContent, tenantAt, h1, h2, h3, h4, h5, h6]

theorem commandsChanged_same {s t : State} (h : SamePolls s t) (st : Station) : commandsChanged s t st = false := by
  have e := pollContent_congr h st
  obtain ⟨h1, h2, h3, h4, h5, h6, -⟩ := h
  have c : carCommand t = carCommand s := by
    funext x
    simp [carCommand, h1, h6]
  have r : rackPoll t = rackPoll s := by
    funext x
    simp [rackPoll, rackFloors, inUse, routedTo, playLine, channelJob, h3, h4, h5]
  have car : carChanged s t st.address = false := by
    simp only [carChanged, h1, c]
    simp
    intro i
    split <;> simp_all
  have rack : rackChanged s t st.address = false := by
    simp [rackChanged, r, h3]
  have point : pointChanged s t st.address = false := by
    simp only [pointChanged, h2]
    simp
    intro i
    split <;> simp_all
  have console : consoleChanged s t st.address = false := by
    simp only [consoleChanged, h3, h6]
    simp
    intro i
    split <;> simp_all
  simp [commandsChanged, e, car, rack, point, console]

/-- An event that changes nothing the polls are taken from, with nothing noted, leaves the early-poll list as it is
(R151). -/
theorem reportChanges_same {before s : State} (h : SamePolls before s) (n : s.notes.owners = []) :
    reportChanges before s = s := by
  have c : (List.finRange 48).filter (fun i => contentChanged before s i || stationNoted s i) = [] := by
    rw [List.filter_eq_nil_iff]
    intro i _
    rw [show stationNoted s i = false by
      unfold stationNoted
      cases s.sline.stations.get i <;> simp [n], Bool.or_false]
    unfold contentChanged
    have k := h.2.2.2.2.2.2 i
    cases a : before.sline.stations.get i <;> cases b : s.sline.stations.get i <;> simp_all
    next st st' =>
      obtain ⟨address, kind⟩ := k
      simp [commandsChanged_same h st']
  unfold reportChanges
  extract_lets changed inOrder t
  have e : t = s := if_pos c
  have k : ∀ u : State, u = s → ({ u with notes := { u.notes with owners := [] } } : State) = s := by
    intro u hu
    rw [hu, ← n]
  exact k t e

theorem finish_same {before s : State} (h : SamePolls before s) (n : s.notes.owners = []) :
    finish before s = settleLines before s := by
  rw [finish, reportChanges_same h n]

/-- What a command answers while the supply is on. -/
theorem effect_on (f : State → State) {s : State} (p : s.powered = true) : effect f s = .next (finish s (f (beginEvent s))) := by
  simp [effect, p]

/-- What a command answers while the supply is off. -/
theorem effect_off (f : State → State) {s : State} (p : s.powered = false) : effect f s = .next s := by
  simp [effect, p]

theorem fromP_keeps {bs : List Block} {f : State → State} (h : ∀ s, Keeps bs s (f s)) (m : Block.receivers ∈ bs)
    (s : State) : Keeps bs s (fromP f s) :=
  ((setRx_p_within .hunt s).toKeeps.mono (by simpa using m)).trans (h _)

end Sys2Proof.Safety
end

