-- ==== Sys2Proof/Laws/Sequencer.lean ====
section
/-! SUPPORT. What each operation of the Evacuation Sequencer may do: it changes the Sequencer's own records, and logs and
reports. -/

namespace Sys2Proof.Safety

-- One proof at a time: the package as one text then compiles within the memory it is given.
set_option Elab.async false

open Sys2Proof.Machine

theorem setFloor_within (f : Fin 64) (x : Floor) (s : State) : Within [.seq] s (setFloor f x s) :=
  .of_only (fun b hb => by cases b <;> simp_all [same]) rfl rfl rfl

theorem setStair_within (st : Fin 4) (x : Stair) (s : State) : Within [.seq] s (setStair st x s) :=
  .of_only (fun b hb => by cases b <;> simp_all [same]) rfl rfl rfl

theorem charge_within (f : Fin 64) (share : Nat) (s : State) (st : Fin 4) : Within [.seq] s (charge f share s st) :=
  setStair_within _ _ s

theorem noteNoStair_within (f : Fin 64) (s : State) : Within [.seq] s (noteNoStair f s) := by
  unfold noteNoStair
  split
  · exact .refl _ _
  · exact (setFloor_within _ _ s).trans (appendLog_within _ _ _ _ _)

theorem promote_within (cause : PromotionCause) (f : Fin 64) (s : State) : Within [.seq] s (promote cause f s) := by
  unfold promote
  refine Within.trans ?_ ((setFloor_within _ _ _).trans (appendLog_within _ _ _ _ _))
  exact .ite (noteNoStair_within f s) (.ite (.refl _ _) (.foldl (fun s st => charge_within f _ s st) _ s))

theorem evaluate_within (fs : List (Fin 64)) (k : Nat) (s : State) : Within [.seq] s (evaluate fs k s) := by
  induction fs generalizing k s with
  | nil => cases k <;> exact .refl _ _
  | cons f fs ih =>
    cases k with
    | zero => exact .refl _ _
    | succ k =>
      unfold evaluate
      split
      · exact (noteNoStair_within f s).trans (ih _ _)
      · split
        · exact (promote_within .phase f s).trans (ih _ _)
        · exact .refl _ _

theorem startPhase_within (s : State) : Within [.seq] s (startPhase s) :=
  .of_only (fun b hb => by cases b <;> simp_all [same, startPhase]) rfl rfl rfl

theorem complete_within (s : State) : Within [.seq] s (complete s) :=
  .of_only (fun b hb => by cases b <;> simp_all [same, complete]) rfl rfl rfl

theorem completeIfDone_within (s : State) : Within [.seq] s (completeIfDone s) :=
  .ite (complete_within s) (.refl _ _)

theorem phaseEvaluation_within (s : State) : Within [.seq] s (phaseEvaluation s) :=
  (evaluate_within _ _ s).trans (completeIfDone_within _)

theorem seqReport_within (bs : List Block) (dest : Byte) (cause : SeqCause) (before s : State) :
    Within bs s (seqReport dest cause before s) := queueReport_within bs _ _ _ s

theorem withdrawFor_within (z : Fin 256) (s : State) : Within [.seq] s (withdrawFor z s) := by
  unfold withdrawFor
  simp only
  split
  · split
    · exact (setStair_within _ _ s).trans (appendLog_within _ _ _ _ _)
    · exact .refl _ _
  · exact .refl _ _

theorem computeUrgencies_within (s : State) : Within [.seq] s (computeUrgencies s) :=
  .of_only (fun b hb => by cases b <;> simp_all [same, computeUrgencies]) rfl rfl rfl

theorem promoteImmediate_within (s : State) : Within [.seq] s (promoteImmediate s) :=
  .foldl (fun s f => promote_within .immediate f s) _ s

theorem alertFloors_within (s : State) : Within [.seq] s (alertFloors s) :=
  .of_only (fun b hb => by cases b <;> simp_all [same, alertFloors]) rfl rfl rfl

theorem withdrawAll_within (s : State) : Within [.seq] s (forEach 256 withdrawFor s) :=
  Within.foldl (fun s i => withdrawFor_within i s) _ s

theorem startClock_within (s : State) :
    Within [.seq] s { s with seq := { s.seq with planClock := 0, planTicks := 0 } } :=
  .of_only (fun b hb => by cases b <;> simp_all [same]) rfl rfl rfl

theorem setSeqState_within (st : SeqState) (s : State) : Within [.seq] s { s with seq := { s.seq with state := st } } :=
  .of_only (fun b hb => by cases b <;> simp_all [same]) rfl rfl rfl

theorem runPlan_within (s : State) :
    Within [.seq] s (startPhase { s with seq := { s.seq with state := .running } }) :=
  (setSeqState_within .running s).trans (startPhase_within _)

theorem endEntry_within (s : State) : Within [.seq] s
    (if noAlert s then complete s else startPhase { s with seq := { s.seq with state := .running } }) :=
  .ite (complete_within s) (runPlan_within s)

theorem seqEntry_within (s : State) : Within [.seq] s (seqEntry s) := by
  have h := (startClock_within s).trans (withdrawAll_within _)
  have h := (h.trans (alertFloors_within _)).trans ((computeUrgencies_within _).trans (promoteImmediate_within _))
  exact h.trans (endEntry_within _)

theorem seqZoneChange_within (entered : List (Fin 256)) (s : State) : Within [.seq] s (seqZoneChange entered s) := by
  unfold seqZoneChange
  have h := ((Within.foldl (fun s z => withdrawFor_within z s) entered s).trans (computeUrgencies_within _)).trans
    ((promoteImmediate_within _).trans (completeIfDone_within _))
  exact .ite (h.trans (seqReport_within _ _ _ _ _)) h

theorem promoteGeneral_within (s : State) : Within [.seq] s (promoteGeneral s) :=
  (Within.foldl (fun s f => promote_within .general f s) _ s).trans (complete_within _)

theorem seqReset_within (s : State) : Within [.seq] s (seqReset s) :=
  .of_only (fun b hb => by cases b <;> simp_all [same, seqReset]) rfl rfl rfl

theorem drainStair_within (st : Fin 4) (s : State) : Within [.seq] s (drainStair st s) := by
  unfold drainStair
  simp only
  split
  · exact .refl _ _
  · exact setStair_within _ _ s

end Sys2Proof.Safety
end

