-- ==== Sys2Proof/Laws/Regime.lean ====
section
/-! SUPPORT. What the regime transitions, the notices, the brigade commands and Zone Intake may do, from what each block's
operations may do. -/

namespace Sys2Proof.Safety

-- One proof at a time: the package as one text then compiles within the memory it is given.
set_option Elab.async false

open Sys2Proof.Machine

/-! ### Small updates -/

theorem setFlags_keeps (s : State) (r : RegimeCtl) : Keeps [.allClear, .relock] s { s with regime := r } :=
  .of_only (fun b hb => by cases b <;> simp_all [same]) rfl rfl

theorem setRegime_keeps (st : Regime) (cause : RegimeCause) (s : State) : Keeps [] s (setRegime st cause s) := by
  have h : Keeps [] s { s with regime := { s.regime with state := st } } :=
    .of_only (fun b _ => by cases b <;> simp [same]) rfl rfl
  exact h.trans ((wakeLine_within _ _).trans (queue_append_within _ _ _ _ _ _ _ _)).toKeeps

/-! ### Notices and transitions (R15, R22 to R27, R53) -/

/-- What the job blocks change. -/
abbrev jobBlocks : List Block := [.seq, .lifts, .doors, .ann, .allClear]

theorem floorNotice_within (before s : State) : Within [.doors, .ann, .allClear] s (floorNotice before s) := by
  unfold floorNotice
  split
  · exact ((doorNotice_within _ s).mono (by simp)).trans
      ((annNotice_within _).mono (by simp [annBlocks, completionBlocks]))
  · exact .refl _ _

theorem zoneNotice_within (entered : List (Fin 256)) (s : State) : Within jobBlocks s (zoneNotice entered s) := by
  unfold zoneNotice
  exact ((seqZoneChange_within entered s).mono (by simp)).trans
    (((liftZoneChange_within _).mono (by simp)).trans ((floorNotice_within s _).mono (by simp)))

theorem abandonRestart_within (s : State) : Within [.mgmt] s (abandonRestart s) := by
  unfold abandonRestart
  split
  · have h : Within [.mgmt] s { s with mgmt := { s.mgmt with wait := none } } :=
      .of_only (fun b hb => by cases b <;> simp_all [same]) rfl rfl rfl
    exact h.trans (appendLog_within _ _ _ _ _)
  · exact .refl _ _

theorem blocksEntry_within (s : State) : Within jobBlocks s (annEntry (doorEntry (liftEntry s))) :=
  ((liftEntry_within s).mono (by simp)).trans
    (((doorEntry_within _).mono (by simp)).trans ((annEntry_within _).mono (by simp [annBlocks, completionBlocks])))

theorem leaveQuiescent_keeps (cause : RegimeCause) (s : State) : Keeps [.mgmt] s
    (abandonRestart { setRegime .active cause s with
      sline := { (setRegime .active cause s).sline with quietTimer := none } }) := by
  have h : Keeps [.mgmt] (setRegime .active cause s)
      { setRegime .active cause s with sline := { (setRegime .active cause s).sline with quietTimer := none } } :=
    .of_only (fun b hb => by cases b <;> simp_all [same]) rfl rfl
  exact ((setRegime_keeps .active cause s).mono (by simp)).trans (h.trans (abandonRestart_within _).toKeeps)

theorem entry_keeps {plan : State → State} (hp : ∀ s, Within [.seq] s (plan s)) (s : State) :
    Within jobBlocks s (annEntry (doorEntry (liftEntry (plan s)))) :=
  ((hp s).mono (by simp)).trans (blocksEntry_within (plan s))

theorem goActive_keeps (cause : RegimeCause) {plan : State → State} (hp : ∀ s, Within [.seq] s (plan s)) (s : State) :
    Keeps (.mgmt :: jobBlocks) s (goActive cause plan s) := by
  unfold goActive
  exact ((leaveQuiescent_keeps cause s).mono (by simp)).trans
    ((entry_keeps hp _).toKeeps.mono (by simp))

theorem planEntry_within (s : State) : Within [.seq] s (planEntry s) :=
  (seqEntry_within s).trans (seqReport_within _ _ _ _ _)

theorem zonesChanged_keeps (entered : List (Fin 256)) (s : State) :
    Keeps (.mgmt :: jobBlocks) s (zonesChanged entered s) := by
  unfold zonesChanged
  split
  · split
    · exact (zoneNotice_within _ s).toKeeps.mono (by simp)
    · exact .refl _ _
  · split
    · exact (zoneNotice_within _ s).toKeeps.mono (by simp)
    · exact goActive_keeps _ planEntry_within s

theorem goRestoring_keeps (s : State) : Keeps (.relock :: jobBlocks) s (goRestoring s) := by
  have h : Keeps (.relock :: jobBlocks) s _ :=
    (setFlags_keeps s { s.regime with allClearDone := false, relockDone := false }).mono (by simp)
  have k := fun (u : State) => (((seqReset_within u).mono (cs := .relock :: jobBlocks) (by simp)).trans
    (seqReport_within _ 0 .regimeReset u _)).trans (((doorReset_within _).mono (by simp)).trans
      ((annReset_within _).mono (by simp [annBlocks, completionBlocks])))
  exact h.trans (((setRegime_keeps .restoring .regimeReset _).mono (by simp)).trans (k _).toKeeps)

/-! ### Brigade commands and the phase timer (R44, R48 to R52) -/

theorem answerCommand_within (bs : List Block) (src : Byte) (code : Option Byte) (a : Answer) (before s : State) :
    Within bs s (answerCommand src code a before s) := seqReport_within bs _ _ _ s

theorem hold_within (s : State) : Within [.seq] s (hold s).2 := by
  unfold hold
  split
  · exact .of_only (fun b hb => by cases b <;> simp_all [same]) rfl rfl rfl
  · exact .refl _ _

theorem evaluated_within (s : State) : Within [.seq] s
    (if (phaseEvaluation s).seq.state = .running then startPhase (phaseEvaluation s) else phaseEvaluation s) := by
  split
  · exact (phaseEvaluation_within s).trans (startPhase_within _)
  · exact phaseEvaluation_within s

theorem stepPlan_within (s : State) : Within [.seq] s (stepPlan s).2 := by
  unfold stepPlan
  split
  · exact phaseEvaluation_within s
  · exact evaluated_within s
  · exact .refl _ _

theorem run_within (s : State) : Within [.seq] s (run s).2 := by
  unfold run
  split
  · exact runPlan_within s
  · exact .refl _ _

theorem planCommand_within (src : Byte) (c : BrigadeCommand) {f : State → Answer × State}
    (hf : ∀ s, Within [.seq] s (f s).2) (s : State) :
    Within [.seq, .doors, .ann, .allClear] s (planCommand src c f s) := by
  unfold planCommand
  exact ((hf s).mono (by simp)).trans ((answerCommand_within _ _ _ _ _ _).trans ((floorNotice_within s _).mono (by simp)))

theorem ownerCommand_within (bs : List Block) (src : Byte) (c : BrigadeCommand) {f : State → Answer × State}
    (hf : ∀ s, Within bs s (f s).2) (s : State) : Within bs s (ownerCommand src c f s) := by
  unfold ownerCommand
  exact (hf s).trans (answerCommand_within _ _ _ _ _ _)

theorem generalEntry_within (src : Byte) (s : State) : Within [.seq] s (generalEntry src s) := by
  have h := (seqEntry_within s).trans (promoteGeneral_within _)
  exact h.trans (answerCommand_within _ _ _ _ _ _)

theorem evacuateAll_keeps (src : Byte) (s : State) : Keeps (.mgmt :: jobBlocks) s (evacuateAll src s) := by
  unfold evacuateAll
  split
  · have h := planCommand_within src .generalEvacuate (f := fun s => (.accepted, promoteGeneral s))
      (fun s => promoteGeneral_within s) s
    exact h.toKeeps.mono (by simp)
  · exact goActive_keeps _ (generalEntry_within src) s

theorem phaseExpiry_within (s : State) : Within [.seq, .doors, .ann, .allClear] s (phaseExpiry s) := by
  unfold phaseExpiry
  split
  · exact ((evaluated_within s).mono (by simp)).trans
      ((seqReport_within _ _ _ _ _).trans ((floorNotice_within s _).mono (by simp)))
  · exact .refl _ _

/-! ### Zone Intake -/

theorem setZone_within (z : Fin 256) (x : Zone) (s : State) : Within [.zones] s (setZone z x s) :=
  .of_only (fun b hb => by cases b <;> simp_all [same]) rfl rfl rfl

theorem onlyZones_within {s : State} (x : ZoneIntake) : Within [.zones] s { s with zones := x } :=
  .of_only (fun b hb => by cases b <;> simp_all [same]) rfl rfl rfl

theorem markIsolated_within (e : IsoEntry) (s : State) : Within [.zones] s (markIsolated e s) := by
  unfold markIsolated
  split
  · split
    · exact setZone_within _ _ s
    · exact .refl _ _
  · exact .refl _ _

theorem setIsolation_within (list : List IsoEntry) (s : State) : Within [.zones] s
    (list.foldl (fun s e => markIsolated e s) { s with zones := { s.zones with isolation := list } }) :=
  Within.trans (onlyZones_within _) (Within.foldl (fun s e => markIsolated_within e s) list _)

theorem reexamine_within (s : State) : Within [.zones, .mgmt] s (reexamine s) := by
  unfold reexamine
  extract_lets list _ t
  split
  · exact .refl _ _
  · exact ((setIsolation_within list s).mono (by simp)).trans ((beginWrite_within _ _).mono (by simp))

theorem detectZones_within (d : Device) (z : Fin 256) (s : State) : Within [.zones] s (detectZones d z s) :=
  (setZone_within z _ s).trans (.foldl (fun s y => setZone_within y _ s) _ _)

theorem reportZone_within (bs : List Block) (z : Fin 256) (s : State) : Within bs s (reportZone z s) :=
  queueReport_within bs _ _ _ s

theorem announceZone_within (bs : List Block) (seq : Byte) (s : State) (z : Fin 256) :
    Within bs s (announceZone seq s z) := (appendLog_within bs _ _ _ s).trans (reportZone_within bs z _)

theorem announceZones_keeps (seq : Byte) (before s : State) :
    Keeps (.mgmt :: jobBlocks) s (announceZones seq before s) := by
  unfold announceZones
  simp only
  split
  · exact .refl _ _
  · exact (Within.foldl (announceZone_within _ seq) _ s).toKeeps.trans (zonesChanged_keeps _ _)

/-- What a report or a reset may change. -/
abbrev zoneBlocks : List Block := .zones :: .mgmt :: jobBlocks

theorem takeDetect_keeps (d : Device) (z : Fin 256) (seq : Byte) (s : State) :
    Keeps zoneBlocks s (takeDetect d z seq s) :=
  ((detectZones_within d z s).toKeeps.mono (by simp)).trans ((announceZones_keeps seq s _).mono (by simp))

theorem takeFault_within (isSet : Bool) (z : Fin 256) (seq : Byte) (s : State) :
    Within [.zones] s (takeFault isSet z seq s) := by
  unfold takeFault
  simp only
  split
  · exact .refl _ _
  · exact (setZone_within z _ s).trans ((appendLog_within _ _ _ _ _).trans (reportZone_within _ z _))

theorem noteUnmapped_within (bs : List Block) (kind : AlarmKind) (d : Device) (seq : Byte) (s : State) : Within bs s
    (if (mapped s d).isNone then appendLog .unmappedReport (.point d) (.report kind seq) s else s) := by
  split
  · exact appendLog_within bs _ _ _ s
  · exact .refl _ _

theorem intake_keeps {bs : List Block} (kind : AlarmKind) (d : Device) (seq : Byte) {f : Fin 256 → State → State}
    (hf : ∀ z s, Keeps bs s (f z s)) (s : State) : Keeps bs s (intake kind d seq f s) := by
  have h := (noteUnmapped_within bs kind d seq s).toKeeps
  unfold intake
  extract_lets z u
  by_cases c : isolated u d z = true
  · rw [if_pos c]; exact h.trans (appendLog_within _ _ _ _ _).toKeeps
  · rw [if_neg c]; exact h.trans (hf z u)

theorem windowExpiry_keeps (z : Fin 256) (s : State) : Keeps zoneBlocks s (windowExpiry z s) := by
  unfold windowExpiry
  extract_lets x t
  split
  · have h : Within [.zones] s t := setZone_within z _ s
    exact (h.toKeeps.mono (by simp)).trans ((appendLog_within _ _ _ _ _).toKeeps.trans
      (((announceZones_keeps 0 s _).mono (by simp)).trans ((reexamine_within _).toKeeps.mono (by simp))))
  · exact .refl _ _

theorem resetZones_within (s : State) : Within [.zones] s (resetZones s) := onlyZones_within _

theorem acceptReset_keeps (s : State) : Keeps (.relock :: zoneBlocks) s (acceptReset s) := by
  have h : Keeps (.relock :: zoneBlocks) s (resetZones s) := (resetZones_within s).toKeeps.mono (by simp)
  unfold acceptReset
  split
  · exact .refl _ _
  · exact h.trans (((reexamine_within _).toKeeps.mono (by simp)).trans ((goRestoring_keeps _).mono (by simp)))
  · split
    · exact .refl _ _
    · exact h.trans (((announceZones_keeps 0 s _).mono (by simp)).trans ((reexamine_within _).toKeeps.mono (by simp)))

theorem takeReset_keeps (src : Byte) (s : State) : Keeps (.relock :: zoneBlocks) s (takeReset src s) := by
  unfold takeReset
  split
  · exact acceptReset_keeps s
  · exact (appendLog_within _ _ _ _ _).toKeeps

theorem appendIsolation_within (c : Scope) (s : State) : Within [.zones] s (appendIsolation c s) :=
  (onlyZones_within _).trans (markIsolated_within _ _)

theorem removeIsolation_within (c : Scope) (s : State) : Within [.zones] s (removeIsolation c s) := by
  cases c with
  | points panel low high => exact onlyZones_within _
  | zone z => exact (onlyZones_within _).trans ((setZone_within z _ _).trans (reportZone_within _ z _))

end Sys2Proof.Safety
end

