-- ==== Sys2Proof/Laws/Manage.lean ====
section
/-! SUPPORT. What the application of a table entry and the management commands may do. -/

namespace Sys2Proof.Safety

-- One proof at a time: the package as one text then compiles within the memory it is given.
set_option Elab.async false

open Sys2Proof.Machine

/-! ### Replies -/

theorem reply_within (bs : List Block) (dst sub : Byte) (r : Reply) (index : Nat) (data : List Byte) (s : State) :
    Within bs s (reply dst sub r index data s) := queueReport_within bs _ _ _ s

theorem replyData_within (bs : List Block) (dst sub : Byte) (frames : List (List Byte)) (s : State) :
    Within bs s (replyData dst sub frames s) := .foldl (fun s data => reply_within bs dst sub .done 0 data s) _ s

theorem endWrite_within (s : State) : Within [.mgmt] s (endWrite s) := by
  unfold endWrite
  split
  · exact .refl _ _
  · next w rest _ =>
    have h : Within [.mgmt] s
        { s with mgmt := { s.mgmt with store := writeItems w.items s.mgmt.store, writes := rest } } :=
      .of_only (fun b hb => by cases b <;> simp_all [same]) rfl rfl rfl
    extract_lets _ u
    have k : Within [.mgmt] s u := h
    split
    · exact k.trans (reply_within _ _ _ _ _ _ u)
    · exact k

/-! ### Table entries (R170) -/

/-- What the application of an entry may change. -/
abbrev loadBlocks : List Block :=
  [.zones, .mgmt, .seq, .lifts, .doors, .ann, .allClear, .cls, .stations, .txn, .early, .params, .receivers, .lines, .addrs]

theorem applyZoneMap_within {i : Fin 128} {e : Option (Nat × Nat × Nat × Nat)} {s t : State}
    (h : applyZoneMap i e s = some t) : Within [.zones, .mgmt] s t := by
  have k : ∀ m, Within [.zones, .mgmt] s (reexamine { s with zones := { s.zones with map := s.zones.map.set i m } }) :=
    fun m => ((onlyZones_within { s.zones with map := s.zones.map.set i m }).mono (by simp)).trans (reexamine_within _)
  unfold applyZoneMap at h
  extract_lets put at h
  split at h
  · cases h; exact k none
  · split at h
    · split at h
      · cases h; exact k _
      · cases h
    · cases h

theorem applyZone_within {z : Fin 256} {kind floor stair ver group knock quiet : Nat} {s t : State}
    (h : applyZone z kind floor stair ver group knock quiet s = some t) : Within [.zones] s t := by
  unfold applyZone at h
  split at h
  · split at h
    · cases h
    · cases h; exact setZone_within z _ s
  · cases h

theorem leaveRack_within (f : Fin 64) (r : Fin 4) (s : State) : Within annBlocks s
    (if (s.seq.floors.get f).rack = r then s else takeFloorsOut (setOf fun g => g == f) s) := by
  split
  · exact .refl _ _
  · exact takeFloorsOut_within _ s

theorem applyFloor_within {f : Fin 64} {occupancy mask rack : Nat} {s t : State}
    (h : applyFloor f occupancy mask rack s = some t) : Within (.seq :: annBlocks) s t := by
  unfold applyFloor at h
  split at h
  · cases h
  · next r _ =>
    split at h
    · cases h
    · cases h
      exact ((leaveRack_within f r s).mono (by simp)).trans (((setFloor_within f _ _).mono (by simp)).trans
        ((arbiter_within _).mono (by simp)))

theorem applyStair_within {st : Fin 4} {capacity window mode : Nat} {s t : State}
    (h : applyStair st capacity window mode s = some t) : Within [.seq] s t := by
  unfold applyStair at h
  split at h
  · cases h
  · cases h; exact setStair_within st _ s

theorem onlyLifts_within {s : State} (x : Lifts) : Within [.lifts] s { s with lifts := x } :=
  .of_only (fun b hb => by cases b <;> simp_all [same]) rfl rfl rfl

theorem applyBank_within {b : Fin 2} {iface pf pz af az shaft timeout : Nat} {s t : State}
    (h : applyBank b iface pf pz af az shaft timeout s = some t) : Within [.lifts] s t := by
  unfold applyBank at h
  split at h
  · split at h
    · cases h
    · cases h; exact onlyLifts_within _
  · cases h

theorem applyCar_within {i : Fin 8} {e : Option (Nat × Nat × FloorSet)} {s t : State}
    (h : applyCar i e s = some t) : Within [.lifts] s t := by
  unfold applyCar at h
  split at h
  · cases h
  · extract_lets put at h
    split at h
    · cases h; exact onlyLifts_within _
    · split at h
      · extract_lets bk taken at h
        split at h
        · cases h
        · cases h; exact onlyLifts_within _
      · cases h

theorem putPoint_within (i : Fin 128) (p : DoorPoint) (s : State) : Within [.doors] s (putPoint i p s) := by
  unfold putPoint
  split
  · exact changePoint_within i _ _ p s
  · exact setPoint_within i p s

theorem onlyDoors_within {s : State} (x : Doors) : Within [.doors] s { s with doors := x } :=
  .of_only (fun b hb => by cases b <;> simp_all [same]) rfl rfl rfl

theorem emptyPoint_within (i : Fin 128) (s : State) : Within [.doors] s
    (match s.doors.points.get i with
      | some old => putPoint i (freshPoint old.controller old.output old.floor old.stair) s
      | none => s) := by
  split
  · exact putPoint_within i _ s
  · exact .refl _ _

theorem applyDoorPoint_within {i : Fin 128} {e : Option (Nat × Nat × Nat × Nat)} {s t : State}
    (h : applyDoorPoint i e s = some t) : Within [.doors] s t := by
  unfold applyDoorPoint at h
  split at h
  · cases h
    exact (emptyPoint_within i s).trans (onlyDoors_within _)
  · split at h
    · extract_lets a taken full at h
      split at h
      · cases h
      · cases h; exact putPoint_within i _ s
    · cases h

theorem applyMessages_within {f : Fin 64} {alert evac a b c d refuge : Nat} {s t : State}
    (h : applyMessages f alert evac a b c d refuge s = some t) : Within annBlocks s t := by
  unfold applyMessages at h
  split at h
  · cases h; exact onlyAnn_within _
  · cases h

theorem removePageOf_within (i : Fin 16) (s : State) : Within annBlocks s
    (match pageSlot s i with
      | some j => removeJob j s
      | none => s) := by
  split
  · exact removeJob_within _ s
  · exact .refl _ _

theorem putTenant_within (i : Fin 16) (t : Option Tenant) (s : State) : Within annBlocks s (putTenant i t s) :=
  (removePageOf_within i s).trans ((onlyAnn_within _).trans (arbiter_within _))

theorem applyTenant_within {i : Fin 16} {e : Option (Nat × FloorSet)} {s t : State}
    (h : applyTenant i e s = some t) : Within annBlocks s t := by
  unfold applyTenant at h
  split at h
  · cases h; exact putTenant_within i _ s
  · extract_lets console taken at h
    split at h
    · cases h
    · cases h; exact putTenant_within i _ s

theorem applyFilter_within {i : Fin 32} {enabled fld test a b action k : Nat} {s t : State}
    (h : applyFilter i enabled fld test a b action k s = some t) : Within [.cls] s t := by
  unfold applyFilter at h
  split at h
  · split at h
    · cases h
    · cases h; exact onlyCls_within _
  · cases h

theorem leaveEarly_within (i : Fin 48) (s : State) : Within [.early] s (leaveEarly i s) :=
  .of_only (fun b hb => by cases b <;> simp_all [same, leaveEarly]) rfl rfl rfl

theorem withdrawPoll_within (i : Fin 48) (s : State) : Within [.txn] s (withdrawPoll i s) :=
  .of_only (fun b hb => by cases b <;> simp_all [same, withdrawPoll]) rfl rfl rfl

theorem applyStation_within {i : Fin 48} {e : Option (Nat × Nat)} {s t : State}
    (h : applyStation i e s = some t) : Within [.stations, .early, .txn] s t := by
  have k : ∀ x, Within [.stations, .early, .txn] s (setStation i x (leaveEarly i s)) := fun x =>
    ((leaveEarly_within i s).mono (by simp)).trans ((setStation_within i x _).mono (by simp))
  unfold applyStation at h
  split at h
  · cases h; exact (k none).trans ((withdrawPoll_within i _).mono (by simp))
  · split at h
    · cases h
    · extract_lets address taken at h
      split at h
      · cases h
      · split at h
        · cases h; exact .refl _ _
        · cases h; exact (k _).trans ((joinEarly_within i _).mono (by simp))

theorem setParams_within (f : Params → Params) (s : State) : Within [.params] s (setParams f s) :=
  .of_only (fun b hb => by cases b <;> simp_all [same]) rfl rfl rfl

/-- What a parameter may change. -/
abbrev paramBlocks : List Block := .params :: .receivers :: annBlocks

theorem leaveUse_within (leaving : FloorSet) (s : State) :
    Within annBlocks s (if leaving = 0 then s else takeFloorsOut leaving s) := by
  split
  · exact .refl _ _
  · exact takeFloorsOut_within _ s

theorem applyNf_within (v : Nat) (s : State) : Within paramBlocks s (applyNf v s) :=
  ((leaveUse_within _ s).mono (by simp)).trans (((setParams_within _ _).mono (by simp)).trans
    ((arbiter_within _).mono (by simp)))

theorem applyRackAddress_within {r : Fin 4} {v : Nat} {s t : State} (h : applyRackAddress r v s = some t) :
    Within paramBlocks s t := by
  unfold applyRackAddress at h
  extract_lets a at h
  split at h
  · cases h
  · cases h; exact (reAddress_within r a s).mono (by simp)

theorem mapParams_within {α : Type} {o : Option α} {f : α → Params → Params} {s t : State}
    (h : o.map (fun a => setParams (f a) s) = some t) : Within paramBlocks s t := by
  obtain ⟨a, -, rfl⟩ := Option.map_eq_some_iff.mp h
  exact (setParams_within _ s).mono (by simp)

theorem justParams_within {f : Params → Params} {s t : State} (h : some (setParams f s) = some t) :
    Within paramBlocks s t := by
  cases h
  exact (setParams_within f s).mono (by simp)

theorem applyRate_within {l : Line} {f : Params → Params} {v : Nat} {s t : State}
    (h : (if v ∈ lineRates then some (takeRate l (setParams f s)) else none) = some t) : Within paramBlocks s t := by
  split at h
  · cases h
    exact ((setParams_within f s).mono (by simp)).trans ((takeRate_within l _).mono (by simp))
  · cases h

theorem applyParam_within {i v : Nat} {s t : State} (h : applyParam i v s = some t) : Within paramBlocks s t := by
  unfold applyParam at h
  split at h
  · cases h; exact applyNf_within v s
  · exact mapParams_within (f := fun z p => { p with catchAll := z }) h
  · exact justParams_within h
  · exact justParams_within h
  · exact mapParams_within (f := fun f p => { p with discharge := f }) h
  · exact justParams_within h
  · exact justParams_within h
  · exact applyRackAddress_within h
  · exact applyRackAddress_within h
  · exact applyRackAddress_within h
  · exact applyRackAddress_within h
  · exact mapParams_within (f := fun m p => { p with allClear := m }) h
  · exact mapParams_within (f := fun m p => { p with testMessage := m }) h
  · exact justParams_within h
  · exact justParams_within h
  · exact justParams_within h
  · exact justParams_within h
  · exact justParams_within h
  · exact justParams_within h
  · exact applyRate_within h
  · exact applyRate_within h
  · exact justParams_within h
  · exact justParams_within h
  · split at h
    · exact justParams_within h
    · cases h
  · exact justParams_within h
  · exact justParams_within h
  · cases h

theorem applyCommon_within {l : Fin 2} {route mode : Nat} {s t : State} (h : applyCommon l route mode s = some t) :
    Within [.lines] s t := by
  unfold applyCommon at h
  split at h
  · cases h
  · cases h; exact .of_only (fun b hb => by cases b <;> simp_all [same, takeOnsets]) rfl rfl rfl

theorem applyAddress_within {i v : Nat} {s t : State} (h : applyAddress i v s = some t) : Within [.addrs] s t := by
  have k : ∀ x, Within [.addrs] s { s with addrs := x } := fun x =>
    .of_only (fun b hb => by cases b <;> simp_all [same]) rfl rfl rfl
  unfold applyAddress at h
  split at h
  · cases h
  · extract_lets a at h
    split at h <;> first | cases h; exact k _ | cases h

theorem started_within {bs : List Block} {o : Option State} {s t : State}
    (k : ∀ u, o = some u → Within bs s u) (h : o.map startTest = some t) : Within (bs ++ annBlocks) s t := by
  obtain ⟨u, hu, rfl⟩ := Option.map_eq_some_iff.mp h
  exact ((k u hu).mono (by simp)).trans ((startTest_within u).mono (by simp))

theorem indexed_within {n i : Nat} {bs : List Block} {f : Fin n → Option State} {s t : State}
    (k : ∀ x t, f x = some t → Within bs s t) (sub : bs ⊆ loadBlocks)
    (h : (index? n i).bind f = some t) : Within loadBlocks s t := by
  obtain ⟨x, -, hx⟩ := Option.bind_eq_some_iff.mp h
  exact (k x t hx).mono sub

/-- R170: an entry applied changes the records of its owner and what follows from them, and nothing else. -/
theorem applyEntry_within {tb : TableId} {i : Nat} {e : Entry} {s t : State} (h : applyEntry tb i e s = some t) :
    Within loadBlocks s t := by
  unfold applyEntry at h
  split at h
  · exact indexed_within (fun _ _ => applyZoneMap_within) (by simp) h
  · exact indexed_within (fun _ _ => applyZone_within) (by simp) h
  · exact indexed_within (fun _ _ => applyFloor_within) (by simp [annBlocks, completionBlocks]) h
  · exact indexed_within (fun _ _ => applyStair_within) (by simp) h
  · split at h
    · cases h
    · exact indexed_within (fun _ _ => applyBank_within) (by simp) h
  · exact indexed_within (fun _ _ => applyCar_within) (by simp) h
  · exact indexed_within (fun _ _ => applyDoorPoint_within) (by simp) h
  · exact indexed_within (fun _ _ => applyStation_within) (by simp) h
  · exact indexed_within (fun _ _ => applyMessages_within) (by simp [annBlocks, completionBlocks]) h
  · exact indexed_within (fun _ _ => applyTenant_within) (by simp [annBlocks, completionBlocks]) h
  · exact indexed_within (fun _ _ => applyFilter_within) (by simp) h
  · exact (started_within (fun _ => applyParam_within) h).mono (by simp [annBlocks, completionBlocks])
  · split at h
    · exact (started_within (fun _ => applyCommon_within) h).mono (by simp [annBlocks, completionBlocks])
    · split at h
      · exact (started_within (fun _ => applyCommon_within) h).mono (by simp [annBlocks, completionBlocks])
      · cases h
  · exact (applyAddress_within h).mono (by simp)
  · cases h

theorem applyRun_within (tb : TableId) (i : Nat) (es : List Entry) (s : State) :
    Within loadBlocks s (applyRun tb i es s).2.2 := by
  induction es generalizing i s with
  | nil => exact .refl _ _
  | cons e es ih =>
    unfold applyRun
    split
    · exact .refl _ _
    · next u hu => exact (applyEntry_within hu).trans (((reportChanges_within s u).mono (by simp)).trans (ih (i + 1) _))

theorem runLoad_within (src : Byte) (tb : TableId) (start : Nat) (es : List Entry) (s : State) :
    Within loadBlocks s (runLoad src tb start es s) := by
  have h := applyRun_within tb start es s
  unfold runLoad
  extract_lets r answer
  split
  · exact h.trans (reply_within _ _ _ _ _ _ _)
  · exact h.trans ((appendLog_within _ _ _ _ _).trans ((beginWrite_within _ _).mono (by simp)))

theorem loadTable_within (src : Byte) (params : List Byte) (s : State) :
    Within loadBlocks s (loadTable src params s) := by
  unfold loadTable
  extract_lets start count
  split
  · exact reply_within _ _ _ _ _ _ s
  · split
    · exact reply_within _ _ _ _ _ _ s
    · split
      · exact reply_within _ _ _ _ _ _ s
      · split
        · exact runLoad_within src _ start _ s
        · exact reply_within _ _ _ _ _ _ s

/-! ### The other management commands -/

theorem readTable_within (src : Byte) (params : List Byte) (s : State) : Within [] s (readTable src params s) := by
  unfold readTable
  extract_lets start count
  split
  · exact reply_within _ _ _ _ _ _ s
  · split
    · exact reply_within _ _ _ _ _ _ s
    · split
      · exact reply_within _ _ _ _ _ _ s
      · exact replyData_within _ _ _ _ s

theorem readRecord_within (src : Byte) (params : List Byte) (s : State) : Within [] s (readRecord src params s) := by
  unfold readRecord
  extract_lets i
  split
  · exact reply_within _ _ _ _ _ _ s
  · split
    · exact reply_within _ _ _ _ _ _ s
    · exact replyData_within _ _ _ _ s

theorem readCapture_within (src : Byte) (params : List Byte) (s : State) : Within [.cls] s (readCapture src params s) := by
  unfold readCapture
  split
  · exact reply_within _ _ _ _ _ _ s
  · exact (onlyCls_within _).trans (replyData_within _ _ _ _ _)

theorem storeIsolation_within (src sub : Byte) (s : State) : Within [.mgmt] s (storeIsolation src sub s) :=
  beginWrite_within _ s

theorem isolateScope_within (src : Byte) (params : List Byte) (s : State) :
    Within [.zones, .mgmt] s (isolateScope src params s) := by
  unfold isolateScope
  split
  · exact reply_within _ _ _ _ _ _ s
  · split
    · exact reply_within _ _ _ _ _ _ s
    · split
      · exact reply_within _ _ _ _ _ _ s
      · exact ((appendIsolation_within _ s).mono (by simp)).trans ((storeIsolation_within _ _ _).mono (by simp))

theorem deIsolateScope_within (src : Byte) (params : List Byte) (s : State) :
    Within [.zones, .mgmt] s (deIsolateScope src params s) := by
  unfold deIsolateScope
  split
  · exact reply_within _ _ _ _ _ _ s
  · split
    · exact ((removeIsolation_within _ s).mono (by simp)).trans ((storeIsolation_within _ _ _).mono (by simp))
    · exact reply_within _ _ _ _ _ _ s

theorem rackStandby_within (src : Byte) (params : List Byte) (s : State) :
    Within annBlocks s (rackStandby src params s) := by
  unfold rackStandby
  split
  · exact reply_within _ _ _ _ _ _ s
  · extract_lets a
    split
    · exact reply_within _ _ _ _ _ _ s
    · split
      · exact reply_within _ _ _ _ _ _ s
      · split
        · exact reply_within _ _ _ _ _ _ s
        · exact (standbyNow_within _ s).trans (reply_within _ _ _ _ _ _ _)

theorem rackCode_within (src : Byte) (params : List Byte) (s : State) :
    Within (.mgmt :: annBlocks) s (rackCode src params s) := by
  unfold rackCode
  split
  · exact reply_within _ _ _ _ _ _ s
  · exact ((setRack_within _ _ s).mono (by simp)).trans ((beginWrite_within _ _).mono (by simp))

theorem doorTest_within (src : Byte) (params : List Byte) (s : State) : Within [.doors] s (doorTest src params s) := by
  unfold doorTest
  split
  · exact reply_within _ _ _ _ _ _ s
  · split
    · exact reply_within _ _ _ _ _ _ s
    · split
      · exact reply_within _ _ _ _ _ _ s
      · exact (testRelease_within _ _ _ s).trans (reply_within _ _ _ _ _ _ _)

theorem acknowledgeAll_within (src : Byte) (s : State) : Within [.lines] s (acknowledgeAll src s) := by
  have h : Within [.lines] s (acknowledge s) := .of_only (fun b hb => by cases b <;> simp_all [same, acknowledge]) rfl rfl rfl
  exact h.trans (reply_within _ _ _ _ _ _ _)

theorem changeKey_within (src : Byte) (params : List Byte) (s : State) : Within [.mgmt] s (changeKey src params s) :=
  .of_only (fun b hb => by cases b <;> simp_all [same, changeKey, beginWrite]) rfl rfl rfl

theorem askRestart_within (src : Byte) (s : State) : Within [.mgmt] s (askRestart src s) := by
  unfold askRestart
  split
  · have h : Within [.mgmt] s { s with mgmt := { s.mgmt with wait := some (ticks 2) } } :=
      .of_only (fun b hb => by cases b <;> simp_all [same]) rfl rfl rfl
    exact h.trans (reply_within _ _ _ _ _ _ _)
  · exact reply_within _ _ _ _ _ _ s

end Sys2Proof.Safety
end

