-- ==== Sys2Proof/Laws/PerInstr.lean ====
section
/-! SUPPORT. The statements made for every command: a command that is a P-line frame is read back from its frame. -/

namespace Sys2Proof.Laws

-- One proof at a time: the package as one text then compiles within the memory it is given.
set_option Elab.async false

open Sys2Proof.Machine

namespace RoundTrip

/-- A command that can occur and is a P-line frame is the command its frame is read as, and the frame has a good header
and a payload that fits. -/
def Statement (i : Instr) : Prop :=
  i.wf = true → ∀ f, frameOf i = some f → commandOf f = i ∧ goodHeader f = true ∧ f.payload.length ≤ 64

/-! ### Bytes -/

theorem be_length (k v : Nat) : (be k v).length = k := by
  induction k with
  | zero => rfl
  | succ k ih => simp [be, ih]

theorem ofBE_append (bs : List Byte) (b : Byte) : ofBE (bs ++ [b]) = ofBE bs * 256 + b.toNat := by
  simp [ofBE]

theorem foldl_be (k v acc : Nat) :
    (be k v).foldl (fun acc b => acc * 256 + b.toNat) acc = acc * 256 ^ k + v % 256 ^ k := by
  induction k generalizing acc with
  | zero => simp [be, Nat.mod_one]
  | succ k ih =>
    have m : v % 256 ^ (k + 1) = v % 256 ^ k + 256 ^ k * (v / 256 ^ k % 256) := by rw [Nat.pow_succ, Nat.mod_mul]
    rw [be, List.foldl_cons, ih, BitVec.toNat_ofNat, m]
    ring

/-- A number carried in enough bytes is read back. -/
theorem ofBE_be (k v : Nat) (h : v < 256 ^ k) : ofBE (be k v) = v := by
  have := foldl_be k v 0
  simpa [ofBE, Nat.mod_eq_of_lt h] using this

theorem be2 (v : Nat) : be 2 v = [BitVec.ofNat 8 (v / 256), BitVec.ofNat 8 v] := by simp [be]

theorem be4 (v : Nat) : be 4 v =
    [BitVec.ofNat 8 (v / 256 ^ 3), BitVec.ofNat 8 (v / 256 ^ 2), BitVec.ofNat 8 (v / 256), BitVec.ofNat 8 v] := by
  simp [be]

/-- The key of a MANAGE frame is read back. -/
theorem key_be (key : BitVec 32) : BitVec.ofNat 32 (ofBE (be 4 key.toNat)) = key := by
  rw [ofBE_be 4 key.toNat key.isLt, BitVec.ofNat_toNat, BitVec.setWidth_eq]

/-- A floor set is read back. -/
theorem floors_be (floors : FloorSet) : BitVec.ofNat 64 (ofBE (be 8 floors.toNat)) = floors := by
  rw [ofBE_be 8 floors.toNat floors.isLt, BitVec.ofNat_toNat, BitVec.setWidth_eq]

/-- A device is read back from its two bytes. -/
theorem device_be (panel : Fin 16) (point : Fin 4096) :
    deviceOf (BitVec.ofNat 8 (deviceCode { panel, point } / 256)) (BitVec.ofNat 8 (deviceCode { panel, point })) =
      { panel, point } := by
  have hp := panel.isLt
  have hq := point.isLt
  simp only [deviceOf, deviceCode, BitVec.toNat_ofNat, Device.mk.injEq, Fin.ext_iff]
  omega

theorem good {h : Hdr} (w : h.wf = true) (kind : Byte) (payload : List Byte) :
    goodHeader (frameWith h kind payload) = true := by
  exact w

/-! ### The families of frames -/

theorem alarm {h : Hdr} {panel : Fin 16} {point : Fin 4096} {seq : Byte} {tail : List Byte} (k : AlarmKind) {i : Instr}
    (w : (h.wf && fits64 4 tail) = true)
    (hi : ∀ a b, deviceOf a b = { panel, point } → readAlarm h (a :: b :: alarmCode k :: seq :: tail) = i) :
    commandOf (alarmFrame h k { panel, point } seq tail) = i ∧
      goodHeader (alarmFrame h k { panel, point } seq tail) = true ∧
      (alarmFrame h k { panel, point } seq tail).payload.length ≤ 64 := by
  rw [Bool.and_eq_true] at w
  refine ⟨?_, good w.1 _ _, ?_⟩
  · have := hi _ _ (device_be panel point)
    simpa [commandOf, alarmFrame, frameWith, hdrOf, alarmPayload, be2] using this
  · have := w.2
    simp only [alarmFrame, frameWith, alarmPayload, List.length_append, be_length, List.length_cons, List.length_nil,
      fits64, decide_eq_true_eq] at this ⊢
    omega

theorem brigade {h : Hdr} {c : BrigadeCommand} {rest : List Byte} {i : Instr} (w : h.wf = true)
    (len : rest.length < 64) (hi : readBrigade h (brigadeCode c :: rest) = i) :
    commandOf (brigadeFrame h c rest) = i ∧ goodHeader (brigadeFrame h c rest) = true ∧
      (brigadeFrame h c rest).payload.length ≤ 64 :=
  ⟨hi, good w _ _, by simpa [brigadeFrame, frameWith] using len⟩

theorem manage {h : Hdr} {key : BitVec 32} {sub : Byte} {params : List Byte} {i : Instr}
    (w : (h.wf && fits64 5 params) = true) (hi : readSubcode h key sub params = i) :
    commandOf (manageFrame h key sub params) = i ∧ goodHeader (manageFrame h key sub params) = true ∧
      (manageFrame h key sub params).payload.length ≤ 64 := by
  rw [Bool.and_eq_true] at w
  refine ⟨?_, good w.1 _ _, ?_⟩
  · subst hi
    have k := key_be key
    rw [be4] at k
    show readManage h (managePayload key sub params) = _
    rw [managePayload, be4]
    show readSubcode h (BitVec.ofNat 32 (ofBE _)) sub params = _
    rw [k]
  · have := w.2
    simp only [manageFrame, frameWith, managePayload, List.length_append, be_length, List.length_cons,
      List.length_nil, fits64, decide_eq_true_eq] at this ⊢
    omega

theorem plain {h : Hdr} {kind : Byte} {payload : List Byte} {i : Instr} (w : h.wf = true) (len : payload.length ≤ 64)
    (hi : commandOf (frameWith h kind payload) = i) :
    commandOf (frameWith h kind payload) = i ∧ goodHeader (frameWith h kind payload) = true ∧
      (frameWith h kind payload).payload.length ≤ 64 := ⟨hi, good w _ _, len⟩

theorem fits {n : Nat} {payload : List Byte} (h : fits64 n payload = true) : n + payload.length ≤ 64 := by
  simpa [fits64] using h

/-! ### One lemma for each command -/

theorem powerOn : Statement .powerOn := fun _ _ e => nomatch e

theorem detect (h : Hdr) (panel : Fin 16) (point : Fin 4096) (seq : Byte) (tail : List Byte) : Statement (.detect h panel point seq tail) := by
  intro w f e
  cases e
  exact alarm .detect w fun a b d => by simp [readAlarm, alarmCode, d]

theorem fault (h : Hdr) (panel : Fin 16) (point : Fin 4096) (seq : Byte) (tail : List Byte) : Statement (.fault h panel point seq tail) := by
  intro w f e
  cases e
  exact alarm .fault w fun a b d => by simp [readAlarm, alarmCode, d]

theorem faultClear (h : Hdr) (panel : Fin 16) (point : Fin 4096) (seq : Byte) (tail : List Byte) : Statement (.faultClear h panel point seq tail) := by
  intro w f e
  cases e
  exact alarm .faultClear w fun a b d => by simp [readAlarm, alarmCode, d]

theorem normal (h : Hdr) (panel : Fin 16) (point : Fin 4096) (seq : Byte) (tail : List Byte) : Statement (.normal h panel point seq tail) := by
  intro w f e
  cases e
  exact alarm .normal w fun a b d => by simp [readAlarm, alarmCode, d]

theorem regimeReset (h : Hdr) (payload : List Byte) : Statement (.regimeReset h payload) := by
  intro w f e
  cases e
  rw [Instr.wf, Bool.and_eq_true] at w
  exact plain w.1 (by have := fits w.2; omega) rfl

theorem phaseHold (h : Hdr) (tail : List Byte) : Statement (.phaseHold h tail) := by
  intro w f e
  cases e
  rw [Instr.wf, Bool.and_eq_true] at w
  exact brigade w.1 (by have := fits w.2; omega) rfl

theorem phaseStep (h : Hdr) (tail : List Byte) : Statement (.phaseStep h tail) := by
  intro w f e
  cases e
  rw [Instr.wf, Bool.and_eq_true] at w
  exact brigade w.1 (by have := fits w.2; omega) rfl

theorem phaseRun (h : Hdr) (tail : List Byte) : Statement (.phaseRun h tail) := by
  intro w f e
  cases e
  rw [Instr.wf, Bool.and_eq_true] at w
  exact brigade w.1 (by have := fits w.2; omega) rfl

theorem generalEvacuate (h : Hdr) (tail : List Byte) : Statement (.generalEvacuate h tail) := by
  intro w f e
  cases e
  rw [Instr.wf, Bool.and_eq_true] at w
  exact brigade w.1 (by have := fits w.2; omega) rfl

theorem liveTalkStart (h : Hdr) (floors : FloorSet) (tail : List Byte) : Statement (.liveTalkStart h floors tail) := by
  intro w f e
  cases e
  rw [Instr.wf, Bool.and_eq_true] at w
  have l : (floorSetBytes floors).length = 8 := be_length 8 _
  have n : 9 + tail.length ≤ 64 := fits w.2
  refine brigade w.1 (by rw [List.length_append, l]; omega) ?_
  have k : BitVec.ofNat 64 (ofBE (floorSetBytes floors)) = floors := floors_be floors
  simp [readBrigade, brigadeCode, l, k]

theorem liveTalkEnd (h : Hdr) (tail : List Byte) : Statement (.liveTalkEnd h tail) := by
  intro w f e
  cases e
  rw [Instr.wf, Bool.and_eq_true] at w
  exact brigade w.1 (by have := fits w.2; omega) rfl

theorem liftRelease (h : Hdr) (bank : Fin 2) (tail : List Byte) : Statement (.liftRelease h bank tail) := by
  intro w f e
  cases e
  rw [Instr.wf, Bool.and_eq_true] at w
  refine brigade w.1 (by have := fits w.2; simp [b1, be]; omega) ?_
  rcases (by omega : bank = 0 ∨ bank = 1) with rfl | rfl <;> simp [readBrigade, brigadeCode, b1, be]

theorem brigadeCommandUnknown (h : Hdr) (payload : List Byte) : Statement (.brigadeCommandUnknown h payload) := by
  intro w f e
  cases e
  simp only [Instr.wf, Bool.and_eq_true, Bool.not_eq_true'] at w
  refine plain w.1.1 (by have := fits w.1.2; omega) ?_
  show readBrigade h payload = _
  have u := w.2
  cases payload with
  | nil => rfl
  | cons c rest =>
    simp only [isBrigade] at u
    unfold readBrigade
    dsimp only
    split <;> split at u <;> simp_all
    cases rest with
    | nil => rfl
    | cons b t => simp_all

theorem poll (h : Hdr) (payload : List Byte) : Statement (.poll h payload) := by
  intro w f e
  cases e
  rw [Instr.wf, Bool.and_eq_true] at w
  exact plain w.1 (by have := fits w.2; omega) rfl

theorem turnFrameSent : Statement .turnFrameSent := fun _ _ e => nomatch e

theorem turnAbandoned (c : Heard) : Statement (.turnAbandoned c) := fun _ _ e => nomatch e

theorem turnTimeout : Statement .turnTimeout := fun _ _ e => nomatch e

theorem loadTable (h : Hdr) (key : BitVec 32) (params : List Byte) : Statement (.loadTable h key params) := by
  intro w f e
  cases e
  exact manage w rfl

theorem readTable (h : Hdr) (key : BitVec 32) (params : List Byte) : Statement (.readTable h key params) := by
  intro w f e
  cases e
  exact manage w rfl

theorem readRecord (h : Hdr) (key : BitVec 32) (params : List Byte) : Statement (.readRecord h key params) := by
  intro w f e
  cases e
  exact manage w rfl

theorem readLog (h : Hdr) (key : BitVec 32) (params : List Byte) : Statement (.readLog h key params) := by
  intro w f e
  cases e
  exact manage w rfl

theorem readCapture (h : Hdr) (key : BitVec 32) (params : List Byte) : Statement (.readCapture h key params) := by
  intro w f e
  cases e
  exact manage w rfl

theorem isolate (h : Hdr) (key : BitVec 32) (params : List Byte) : Statement (.isolate h key params) := by
  intro w f e
  cases e
  exact manage w rfl

theorem deIsolate (h : Hdr) (key : BitVec 32) (params : List Byte) : Statement (.deIsolate h key params) := by
  intro w f e
  cases e
  exact manage w rfl

theorem rackStandbyNow (h : Hdr) (key : BitVec 32) (params : List Byte) : Statement (.rackStandbyNow h key params) := by
  intro w f e
  cases e
  exact manage w rfl

theorem rackCountdown (h : Hdr) (key : BitVec 32) (params : List Byte) : Statement (.rackCountdown h key params) := by
  intro w f e
  cases e
  exact manage w rfl

theorem testDoor (h : Hdr) (key : BitVec 32) (params : List Byte) : Statement (.testDoor h key params) := by
  intro w f e
  cases e
  exact manage w rfl

theorem acknowledgeLines (h : Hdr) (key : BitVec 32) (params : List Byte) : Statement (.acknowledgeLines h key params) := by
  intro w f e
  cases e
  exact manage w rfl

theorem setKey (h : Hdr) (key : BitVec 32) (params : List Byte) : Statement (.setKey h key params) := by
  intro w f e
  cases e
  exact manage w rfl

theorem restart (h : Hdr) (key : BitVec 32) (params : List Byte) : Statement (.restart h key params) := by
  intro w f e
  cases e
  exact manage w rfl

theorem manageUnknownSubcode (h : Hdr) (key : BitVec 32) (sub : Byte) (params : List Byte) : Statement (.manageUnknownSubcode h key sub params) := by
  intro w f e
  cases e
  simp only [Instr.wf, Bool.and_eq_true, decide_eq_true_eq] at w
  refine manage (by simp [w.1.1, w.1.2]) ?_
  have u := w.2
  unfold readSubcode
  split <;> first | omega | rfl

theorem serviceRequest (h : Hdr) (payload : List Byte) : Statement (.serviceRequest h payload) := by
  intro w f e
  cases e
  rw [Instr.wf, Bool.and_eq_true] at w
  exact plain w.1 (by have := fits w.2; omega) rfl

theorem untakenFrame (h : Hdr) (kind : Byte) (payload : List Byte) : Statement (.untakenFrame h kind payload) := by
  intro w f e
  cases e
  simp only [Instr.wf, Bool.and_eq_true, Bool.not_eq_true'] at w
  refine plain w.1.1 (by have := fits w.1.2; omega) ?_
  have u := w.2
  simp only [kindsTaken, List.contains_cons, List.contains_nil, Bool.or_false, Bool.or_eq_false_iff,
    beq_eq_false_iff_ne] at u
  obtain ⟨u1, u2, u3, u4, u5, u6⟩ := u
  simp [commandOf, frameWith, hdrOf, u1, u2, u3, u4, u5, u6]

theorem badFrame (l : Line) (bytes : List Byte) : Statement (.badFrame l bytes) := fun _ _ e => nomatch e

theorem silence2ms (l : Line) : Statement (.silence2ms l) := fun _ _ e => nomatch e

theorem nextTransaction : Statement .nextTransaction := fun _ _ e => nomatch e

theorem stationReply (h : Hdr) (payload : List Byte) : Statement (.stationReply h payload) := fun _ _ e => nomatch e

theorem serviceAnswer (h : Hdr) (payload : List Byte) : Statement (.serviceAnswer h payload) := fun _ _ e => nomatch e

theorem answerWindowClose : Statement .answerWindowClose := fun _ _ e => nomatch e

theorem rejectedCandidate (cause : RejectCause) : Statement (.rejectedCandidate cause) := fun _ _ e => nomatch e

theorem zoneWindowExpiry (z : Fin 256) : Statement (.zoneWindowExpiry z) := fun _ _ e => nomatch e

theorem drain (stair : Fin 4) : Statement (.drain stair) := fun _ _ e => nomatch e

theorem phaseTimerExpiry : Statement .phaseTimerExpiry := fun _ _ e => nomatch e

theorem recallTimerExpiry (car : Fin 8) : Statement (.recallTimerExpiry car) := fun _ _ e => nomatch e

theorem mismatchTimerExpiry (point : Fin 128) : Statement (.mismatchTimerExpiry point) := fun _ _ e => nomatch e

theorem relockTimerExpiry : Statement .relockTimerExpiry := fun _ _ e => nomatch e

theorem testTimerExpiry (point : Fin 128) : Statement (.testTimerExpiry point) := fun _ _ e => nomatch e

theorem countdownExpiry (rack : Fin 4) : Statement (.countdownExpiry rack) := fun _ _ e => nomatch e

theorem warmUpTimerExpiry (ch : Fin 2) : Statement (.warmUpTimerExpiry ch) := fun _ _ e => nomatch e

theorem playTimerExpiry (ch : Fin 2) : Statement (.playTimerExpiry ch) := fun _ _ e => nomatch e

theorem restTimerExpiry (slot : Fin 16) : Statement (.restTimerExpiry slot) := fun _ _ e => nomatch e

theorem liveTalkLimit : Statement .liveTalkLimit := fun _ _ e => nomatch e

theorem pageLimit (slot : Fin 16) : Statement (.pageLimit slot) := fun _ _ e => nomatch e

theorem holdDeadline (slot : Fin 16) : Statement (.holdDeadline slot) := fun _ _ e => nomatch e

theorem testPeriodExpiry : Statement .testPeriodExpiry := fun _ _ e => nomatch e

theorem forwardLifetimeExpiry (entry : Fin 16) : Statement (.forwardLifetimeExpiry entry) := fun _ _ e => nomatch e

theorem quietLineTimerExpiry : Statement .quietLineTimerExpiry := fun _ _ e => nomatch e

theorem timestampWrap : Statement .timestampWrap := fun _ _ e => nomatch e

theorem storeWriteEnd : Statement .storeWriteEnd := fun _ _ e => nomatch e

theorem restartWaitEnd : Statement .restartWaitEnd := fun _ _ e => nomatch e

theorem supplyFailure : Statement .supplyFailure := fun _ _ e => nomatch e

theorem brokenCharacter (l : Line) : Statement (.brokenCharacter l) := fun _ _ e => nomatch e

theorem frameLengthAbove64 (l : Line) : Statement (.frameLengthAbove64 l) := fun _ _ e => nomatch e

theorem characterInHunt (l : Line) : Statement (.characterInHunt l) := fun _ _ e => nomatch e

theorem frameBegun (l : Line) (b : Byte) : Statement (.frameBegun l b) := fun _ _ e => nomatch e

theorem answerWindowOpen : Statement .answerWindowOpen := fun _ _ e => nomatch e

theorem alarmReportDiscarded (h : Hdr) (payload : List Byte) : Statement (.alarmReportDiscarded h payload) := by
  intro w f e
  cases e
  simp only [Instr.wf, Bool.and_eq_true, Bool.not_eq_true'] at w
  refine plain w.1.1 (by have := fits w.1.2; omega) ?_
  show readAlarm h payload = _
  have u := w.2
  unfold readAlarm
  split
  · simp only [isAlarm, decide_eq_false_iff_not] at u
    dsimp only
    split <;> first | omega | rfl
  · rfl

theorem manageSetAside (h : Hdr) (payload : List Byte) : Statement (.manageSetAside h payload) := by
  intro w f e
  cases e
  simp only [Instr.wf, Bool.and_eq_true, decide_eq_true_eq] at w
  refine plain w.1 (by omega) ?_
  show readManage h payload = _
  unfold readManage
  split
  · have := w.2
    simp at this
    omega
  · rfl

end RoundTrip

end Sys2Proof.Laws
end

