-- ==== Sys2Proof/Tests/Slice0.lean ====
section
/-! SUPPORT. Tests: ill-formed commands refused, frames written out byte by byte from the description's layout and read,
steps with results the description states, and for every statement with hypotheses a state that meets them. -/

open Sys2Proof Sys2Proof.Machine Sys2Proof.Safety

namespace Sys2Proof.Tests

-- Many small kernel evaluations follow; one at a time they need one thread's memory.
set_option Elab.async false

/-! ### Small states -/

/-- A header from a station to the bridge's address 5. -/
def toUs (src : Byte) : Hdr := { dst := 5, src, cls := 0 }

/-- The bridge with its addresses loaded: own 5, main panel 9, brigade list 30 and 31. -/
def base : State := { State.reset with addrs := { own := 5, mainPanel := 9, brigade := ⟨[30, 31], rfl⟩ } }

/-- A bridge whose racks are all fitted, at address 71, and ON. -/
def withRacks : State :=
  { base with ann := { base.ann with racks := base.ann.racks.map fun x => { x with address := 71, power := .on } } }

def active : State := { base with regime := { base.regime with state := .active } }

def withZone (x : Zone) : State :=
  { base with zones := { base.zones with table := base.zones.table.set 255 x } }

/-- The catch-all zone with a verification mode, and with its window open since a DETECT of another device. -/
def verified : Zone := { Zone.blank with cfg := { Zone.blank.cfg with verification := .doubleKnock } }
def knocked : Zone := { verified with state := .preAlarm, first := some { panel := 1, point := 7 }, window := some 0 }

def withSeq (st : SeqState) (running : Bool) : State :=
  { base with seq := { base.seq with state := st, phase := { left := 3, running } } }

def withJob (j : Fin 16) (x : Job) (c : Channel) (s : State) : State :=
  { s with ann := { s.ann with jobs := s.ann.jobs.set j (some x), channels := s.ann.channels.set 1 c } }

def entry (cls : Nat) : QEntry := { dest := 0, cls, payload := .regime .active .regimeReset, stamp := 0, sending := false }

def withQueue (n cls : Nat) : State :=
  { base with port := { base.port with queue := List.replicate n (entry cls) } }

def withTurn (n : Nat) (frame : Option TurnFrame) (q : List QEntry) : State :=
  { base with port := { base.port with queue := q, turn := some { master := 1, sent := n, frame } } }

def lift61 : Station := { address := 61, kind := .liftInterface, lost := false, noAnswer := 2, lastReply := none }

def withStation (x : Station) : State :=
  { base with sline := { base.sline with stations := base.sline.stations.set 7 (some x) } }

def withTxn (kind : TxnKind) (s : State) : State :=
  { s with sline := { s.sline with
      txn := some { kind, dest := 61, sent := .poll (.lift []), window := some 0, candidate := false } } }

def car : Car :=
  { bank := 0, index := 0, served := 1, reported := none, state := .recalling, target := some 0, start := 0,
    timer := some 0, compromised := false, before := none }

def point (closed : Bool) : DoorPoint :=
  { controller := 40, output := 0, floor := 0, stair := 0, commanded := .released
    feedback := some { lock := .disengaged, door := if closed then .closed else .opened }
    supervision := .mismatch, mismatch := some 0, pending := false, test := some 0 }

/-- Point 0 with its door closed and point 127 with its door open. -/
def withPoints : State :=
  { base with doors := { base.doors with
      points := (base.doors.points.set 0 (some (point true))).set 127 (some (point false)) } }

def forwardEntry (onLine : Bool) : Forward :=
  { frame := { dst := 61, src := 9, kind := kindServiceRequest, cls := 3, payload := [7] }, arrival := 0, onLine,
    late := false }

def withForward (e : Forward) : State := { base with cls := { base.cls with queue := [e] } }

def page : Job :=
  { newJob .tenant (.liveTenant 15) 1 (.times 1) (some 0) with
    state := .playing, channel := some 1, pageLimit := some 0 }

def paged : State :=
  let s := withJob 15 page { Channel.blank with state := .playing, job := some 15, held := 1 } withRacks
  { s with ann := { s.ann with tenants := s.ann.tenants.set 15 (some { console := 80, allowed := 1, status := .granted }) } }

def talk : State :=
  withJob 3 { newJob .liveBrigade .liveBrigade 1 (.times 1) none with state := .playing, channel := some 1 }
    { Channel.blank with state := .playing, job := some 3, held := 1 } withRacks

def playing : State :=
  withJob 3 { newJob .evacuate (.message 10) 1 .continuous none with state := .playing, channel := some 1 }
    { Channel.blank with state := .playing, job := some 3, held := 1, play := some 0 } withRacks

/-! ### Ill-formed commands (R2, R48, R119, R120, R134, R168) -/

def bytes (n : Nat) : List Byte := List.replicate n 0

theorem test_wf_destination_above_126 : (Instr.poll { dst := 127, src := 1, cls := 0 } []).wf = false := by decide
theorem test_wf_source_0 : (Instr.poll { dst := 5, src := 0, cls := 0 } []).wf = false := by decide
theorem test_wf_source_above_126 : (Instr.poll { dst := 5, src := 127, cls := 0 } []).wf = false := by decide
theorem test_wf_class_above_7 : (Instr.poll { dst := 5, src := 1, cls := 8 } []).wf = false := by decide

/-- A payload of 65 bytes, in every command that carries one (R119). -/
theorem test_wf_payload_above_64 : ∀ i ∈ [
    Instr.detect (toUs 9) 1 1 0 (bytes 61), .fault (toUs 9) 1 1 0 (bytes 61), .faultClear (toUs 9) 1 1 0 (bytes 61),
    .normal (toUs 9) 1 1 0 (bytes 61), .regimeReset (toUs 9) (bytes 65), .phaseHold (toUs 9) (bytes 64),
    .phaseStep (toUs 9) (bytes 64), .phaseRun (toUs 9) (bytes 64), .generalEvacuate (toUs 9) (bytes 64),
    .liveTalkStart (toUs 9) 1 (bytes 56), .liveTalkEnd (toUs 9) (bytes 64), .liftRelease (toUs 9) 0 (bytes 63),
    .brigadeCommandUnknown (toUs 9) (7 :: bytes 64), .poll (toUs 9) (bytes 65), .loadTable (toUs 9) 0 (bytes 60),
    .readTable (toUs 9) 0 (bytes 60), .readRecord (toUs 9) 0 (bytes 60), .readLog (toUs 9) 0 (bytes 60),
    .readCapture (toUs 9) 0 (bytes 60), .isolate (toUs 9) 0 (bytes 60), .deIsolate (toUs 9) 0 (bytes 60),
    .rackStandbyNow (toUs 9) 0 (bytes 60), .rackCountdown (toUs 9) 0 (bytes 60), .testDoor (toUs 9) 0 (bytes 60),
    .acknowledgeLines (toUs 9) 0 (bytes 60), .setKey (toUs 9) 0 (bytes 60), .restart (toUs 9) 0 (bytes 60),
    .manageUnknownSubcode (toUs 9) 0 13 (bytes 60), .serviceRequest (toUs 9) (bytes 65),
    .untakenFrame (toUs 9) 0x11 (bytes 65), .stationReply (toUs 9) (bytes 65), .serviceAnswer (toUs 9) (bytes 65),
    .alarmReportDiscarded (toUs 9) (0 :: 0 :: 4 :: bytes 62)], i.wf = false := by decide

/-- A payload that is a command of the table is not an unknown one (R48). -/
theorem test_wf_known_brigade_command : (Instr.brigadeCommandUnknown (toUs 30) [6, 2]).wf = false := by decide
/-- An ALARM REPORT of one of the four kinds is not discarded (R2). -/
theorem test_wf_known_alarm_kind : (Instr.alarmReportDiscarded (toUs 9) [0, 0, 3, 0]).wf = false := by decide
theorem test_wf_known_subcode : (Instr.manageUnknownSubcode (toUs 9) 0 12 []).wf = false := by decide
theorem test_wf_manage_with_head : (Instr.manageSetAside (toUs 9) (bytes 5)).wf = false := by decide
theorem test_wf_taken_kind : (Instr.untakenFrame (toUs 9) 0x50 []).wf = false := by decide
/-- A bad frame has 7 + L bytes, L at most 64, and is not good (R119, R120). -/
theorem test_wf_bad_frame_short : (Instr.badFrame .p [5, 1, 0x10, 0, 0, 0]).wf = false := by decide
theorem test_wf_bad_frame_long : (Instr.badFrame .p (5 :: 1 :: 0x10 :: 0 :: 65 :: bytes 67)).wf = false := by decide
theorem test_wf_bad_frame_good : (Instr.badFrame .p [5, 1, 0x10, 0, 0, 0x07, 0x8C]).wf = false := by decide +kernel

/-! ### Frames read (Table 6-1, R2, R48, R121, R122, R168); the check bytes are computed by hand from R121 -/

/-- The register of R121 over the digits 1 to 9, a value widely tabled for this polynomial and start. -/
theorem test_check_of_digits : check [0x31, 0x32, 0x33, 0x34, 0x35, 0x36, 0x37, 0x38, 0x39] = 0x29B1 := by decide +kernel

/-- The opcode table gives its rows no bits, so no word of it spells a command. -/
theorem test_table_word : decodeTableWord 8 0 = none := by decide +kernel

theorem test_read_poll : commandOfBytes [5, 1, 0x10, 0, 0, 0x07, 0x8C] = .poll (toUs 1) [] := by decide +kernel
/-- Panel 2, point 141 (08Dh), DETECT, sequence byte 11h. -/
theorem test_read_detect : commandOfBytes [0, 9, 0x20, 1, 4, 0x20, 0x8D, 0, 0x11, 0xAF, 0x7E] =
    .detect { dst := 0, src := 9, cls := 1 } 2 141 0x11 [] := by decide +kernel
theorem test_read_fault_clear : commandOfBytes [0, 9, 0x20, 1, 4, 0xFF, 0xFF, 2, 0, 0x01, 0x89] =
    .faultClear { dst := 0, src := 9, cls := 1 } 15 4095 0 [] := by decide +kernel
theorem test_read_regime_reset : commandOfBytes [0, 9, 0x21, 0, 0, 0x53, 0x8D] =
    .regimeReset { dst := 0, src := 9, cls := 0 } [] := by decide +kernel
/-- Floors 0, 1 and 16: floor 0 is the least significant bit of the last byte. -/
theorem test_read_live_talk : commandOfBytes [5, 30, 0x22, 0, 9, 4, 0, 0, 0, 0, 0, 1, 0, 3, 0x6B, 0xD3] =
    .liveTalkStart (toUs 30) 0x10003 [] := by decide +kernel
theorem test_read_lift_release : commandOfBytes [5, 30, 0x22, 0, 2, 6, 2, 0xBA, 0xFD] = .liftRelease (toUs 30) 1 [] := by
  decide +kernel
theorem test_read_unknown_bank : commandOfBytes [5, 30, 0x22, 0, 2, 6, 3, 0xAA, 0xDC] =
    .brigadeCommandUnknown (toUs 30) [6, 3] := by decide +kernel
theorem test_read_read_log :
    commandOfBytes [5, 100, 0x30, 3, 8, 0x12, 0x34, 0x56, 0x78, 3, 1, 0, 8, 0x54, 0xE2] =
      .readLog { dst := 5, src := 100, cls := 3 } 0x12345678 [1, 0, 8] := by decide +kernel
theorem test_read_set_aside : commandOfBytes [5, 100, 0x30, 3, 4, 0, 0, 0, 0, 0xF3, 0x00] =
    .manageSetAside { dst := 5, src := 100, cls := 3 } [0, 0, 0, 0] := by decide +kernel
theorem test_read_service_request : commandOfBytes [61, 9, 0x50, 3, 1, 7, 0xA8, 0x1E] =
    .serviceRequest { dst := 61, src := 9, cls := 3 } [7] := by decide +kernel
theorem test_read_untaken : commandOfBytes [126, 126, 0x11, 7, 0, 0xCE, 0xC9] =
    .untakenFrame { dst := 126, src := 126, cls := 7 } 0x11 [] := by decide +kernel
/-- The same POLL with one check byte wrong, and frames with a right check and a header out of range. -/
theorem test_read_wrong_check : commandOfBytes [5, 1, 0x10, 0, 0, 0x07, 0x8D] =
    .badFrame .p [5, 1, 0x10, 0, 0, 0x07, 0x8D] := by decide +kernel
theorem test_read_header_out_of_range : ∀ bs ∈ [[(127 : Byte), 9, 0x10, 0, 0, 0xD9, 0x67], [5, 0, 0x10, 0, 0, 0x71, 0x38],
    [5, 1, 0x10, 8, 0, 0x8E, 0x25]], commandOfBytes bs = .badFrame .p bs := by decide +kernel

/-! ### Steps with results the description states -/

/-- What a step of exec makes of a projection of the state. -/
def after {α : Type} (c : Instr) (s : State) (f : State → α) : Option α :=
  match exec c s with
  | .next t => some (f t)
  | .fault _ => none
  | .refused _ => none

theorem test_power_on_of_blank : after .powerOn State.blank id = some State.reset := by decide +kernel
/-- Nothing but POWER ON acts while the supply is off. -/
theorem test_dark_is_inert :
    after .turnTimeout { base with powered := false } id = some { base with powered := false } := rfl
/-- R5, R14: a FAULT of an unmapped device is logged and sets the flag of the catch-all zone 255. -/
theorem test_unmapped_fault :
    after (.fault { dst := 0, src := 9, cls := 1 } 2 141 0 []) base
      (fun t => ((t.zones.table.get 255).fault, t.log.records.map (·.kind))) =
    some (true, [.restart, .unmappedReport, .zoneFault]) := by decide +kernel
/-- R49: PHASE HOLD in IDLE is answered NO CHANGE and changes nothing. -/
theorem test_hold_in_idle : hold base = (.noChange, base) := rfl
/-- R133: a brigade command from an address outside the list is logged and not carried out. -/
theorem test_command_refused :
    after (.generalEvacuate (toUs 29) []) base (fun t => (t.regime.state, t.log.records.map (·.kind))) =
      some (.quiescent, [.restart, .commandRefused]) := by decide +kernel
/-- R40's worked shares: occupancy 120 on stairs A (60 a minute) and B (45 a minute), promoted at plan time 0. -/
def stairsAB : State :=
  { active with seq := { active.seq with
      stairs := ((active.seq.stairs.set 0 { Stair.blank with capacity := 60, window := 2, budget := 120 }).set 1
        { Stair.blank with capacity := 45, window := 2, budget := 90 })
      floors := active.seq.floors.set 11 { Floor.blank with occupancy := 120, mask := 3, state := .alert } } }
theorem test_shares_of_r40 :
    (let t := promote .phase 11 stairsAB
     ((t.seq.stairs.get 0).loads, (t.seq.stairs.get 0).committed, (t.seq.stairs.get 1).loads,
       (t.seq.stairs.get 1).committed)) =
    ([{ floor := 11, share := 60, expiry := 60 }], 60, [{ floor := 11, share := 60, expiry := 80 }], 60) := by
  decide +kernel
/-- R31's worked budgets. -/
theorem test_budget_of_r31 :
    after (.loadTable { dst := 5, src := 100, cls := 3 } 0 [3, 0, 2, 60, 2, 0, 255, 16, 1]) base
      (fun t => ((t.seq.stairs.get 0).budget, (t.seq.stairs.get 1).budget, (t.seq.stairs.get 1).mode)) =
    some (120, 3825, .follow) := by decide +kernel
/-- R31: a release mode that is neither ALL nor FOLLOW is refused with BAD ENTRY. -/
theorem test_bad_release_mode :
    after (.loadTable { dst := 5, src := 100, cls := 3 } 0 [3, 0, 1, 60, 2, 2]) base
      (fun t => ((t.seq.stairs.get 0).capacity, t.port.queue.map (·.payload))) =
    some (0, [.manageReply 0 .badEntry 0 []]) := by decide +kernel
/-- R168: a MANAGE frame with the wrong key is answered REFUSED KEY. -/
theorem test_wrong_key :
    after (.setKey { dst := 5, src := 100, cls := 3 } 1 [0, 0, 0, 2]) base
      (fun t => (t.mgmt.key, t.port.queue.map (·.payload))) =
    some (0, [.manageReply 11 .refusedKey 0 []]) := by decide +kernel
/-- R94: a rack in WAKING that reports ON becomes ON, one in FAULT that reports STANDBY stays there. -/
theorem test_power_after : powerAfter .waking .on = .on ∧ powerAfter .fault .standby = .fault := by decide
/-- R36: distances above and below an alarm floor. -/
theorem test_distances : distance 15 14 = 1 ∧ distance 13 14 = 2 ∧ distance 17 14 = 5 ∧ distance 14 14 = 0 := by decide
/-- R95: countdown codes 60 and 61 are 600 s and 660 s. -/
theorem test_countdown_codes : countdownTicks 60 = 60000 ∧ countdownTicks 61 = 66000 := by decide
/-- R127: TURN END after the last frame; R129: the timeout starts again while a report waits. -/
theorem test_turn_end_restarts_timeout :
    after .turnFrameSent (withTurn 4 (some (.turnEnd 1 false)) [entry 5]) (fun t => (t.port.turn, t.port.timeout)) =
      some (none, { left := 500, running := true }) := by decide +kernel
/-- R156: the third NO ANSWER in a row loses the station. -/
theorem test_third_no_answer :
    after .answerWindowClose (withTxn (.poll 7) (withStation lift61))
      (fun t => ((t.sline.stations.get 7).map (·.lost), t.log.records.map (·.kind))) =
    some (some true, [.restart, .stationLost]) := by decide +kernel
/-- R27: the second of the two flags takes the regime to QUIESCENT. -/
theorem test_second_flag :
    (setRelockDone { base with
      regime := { state := .restoring, allClearDone := true, relockDone := false } }).regime.state = .quiescent := by
  decide +kernel

/-- R165: a reply in which the one OVERDUE car parks and another car is STRANDED is an onset, though a car was OVERDUE when
the event began and one is STRANDED when it ends: the latch of COMMON FAULT, acknowledged before, is set. -/
def overdueCar : State :=
  { base with
    lifts := {
      banks := base.lifts.banks.set 0 { Bank.blank with iface := 61 }
      cars := (base.lifts.cars.set 0 (some { car with state := .overdue, timer := none })).set 1
        (some { car with index := 1 }) }
    sline := { (withStation { lift61 with noAnswer := 0 }).sline with
      txn := some { kind := .poll 7, dest := 61, sent := .poll (.lift []), window := some 1, candidate := true } } }
theorem test_onset_within_one_reply :
    after (.stationReply { dst := 5, src := 61, cls := 0 } [2, 0, 0, 0, 0, 4, 1, 0, 0, 0, 3]) overdueCar
      (fun t => ((t.lifts.cars.get 0).map (·.state), (t.lifts.cars.get 1).map (·.state), (t.lines.get 1).latch)) =
    some (some .parked, some .stranded, true) := by decide +kernel
/-- A lift interface polled at 61 whose record has the address given, with the car of bank 1 that names 61 LOST. -/
def lostAt (a : Byte) : State :=
  let s := withTxn (.poll 7) (withStation { lift61 with address := a })
  { s with lifts := { s.lifts with
      banks := s.lifts.banks.upd 0 fun b => { b with iface := 61 }
      cars := s.lifts.cars.set 0 (some { car with
        state := .lost, target := none, timer := none, before := some { state := .free, target := none } }) } }
/-- R158: a LOST car is re-derived with the first good reply of its address, though the record was ONLINE, and stays LOST
when the record has been loaded with another address during the poll. -/
theorem test_online_notice_by_address :
    [61, 62].map (fun a => after (.stationReply { dst := 5, src := 61, cls := 0 } [0]) (lostAt a)
      fun t => (t.lifts.cars.get 0).map (·.state)) = [some (some .free), some (some .lost)] := by decide +kernel
/-- R158: a record out of use and back in use during its poll has the outcome discarded. -/
theorem test_withdrawn_poll :
    (let s := withTxn (.poll 7) (withStation lift61)
     let t := (applyStation 7 none s).bind (applyStation 7 (some (61, 0)))
     t.map fun t => ((endTxn none t).sline.stations.get 7).map (·.noAnswer)) = some (some 0) := by decide +kernel
/-- R128: a frame begun in a gap abandons the turn; R119: once the bridge's frame has started the receiver is held. -/
theorem test_turn_gap_and_frame :
    after (.frameBegun .p 7) (setRx .p .ready (withTurn 0 none [entry 5]))
        (fun t => (t.port.turn, t.port.line.rx)) = some (none, .inFrame [7]) ∧
      after (.silence2ms .p) (tick (withTurn 0 none [entry 5]))
        (fun t => (t.port.turn.isSome, t.port.line.rx)) = some (true, .hunt) := by decide +kernel
/-- R126, R129: a more urgent entry queued in a gap is the next frame, one queued after the frame has started is not, and an
entry queued in the gap of a turn whose queue was empty at the POLL is sent in it. -/
theorem test_head_taken_as_frame_starts :
    (tick (queueReport 0 1 (entry 1).payload (withTurn 0 none [entry 5]))).port.turn.map (·.frame) =
        some (some (.report (entry 1))) ∧
      (tick (queueReport 0 1 (entry 1).payload (tick (withTurn 0 none [entry 5])))).port.turn.map (·.frame) =
        some (some (.report (entry 5))) ∧
      (tick (queueReport 0 1 (entry 1).payload (grantTurn 1 base))).port.turn.map (·.frame) =
        some (some (.report (entry 1))) := by decide +kernel
/-- R95, R105, R151: a rack that shares its station with a lower-numbered one joins it to the early-poll list as its
countdown ends and as a channel wakes it. -/
def sharedRacks (p : Power) : State :=
  let s := withStation { lift61 with address := 70, kind := .amplifierRack }
  { s with ann := { s.ann with
      racks := (s.ann.racks.set 0 { Rack.blank with address := 70, power := .on }).set 1
        { Rack.blank with address := 70, code := 1, power := p, commanded := if p = .standby then .standby else .on } } }
theorem test_shared_rack_joins :
    after (.countdownExpiry 1) (sharedRacks .on) (fun t => ((t.ann.racks.get 1).power, t.sline.early)) =
        some (.standby, [7]) ∧
      after (.restTimerExpiry 15)
        (let s := sharedRacks .standby
         { s with
           seq := { s.seq with floors := s.seq.floors.set 0 { Floor.blank with rack := 1 } }
           ann := { s.ann with jobs := s.ann.jobs.set 15 (some
             { newJob .evacuate (.message 10) 1 .continuous none with state := .resting, rest := some 0 }) } })
        (fun t => ((t.ann.channels.get 0).state, (t.ann.racks.get 1).power, t.sline.early)) =
          some (.warming, .waking, [7]) := by
  decide +kernel
/-- R77, R151: a point locked as its test ends joins the station at its controller's address to the early-poll list, of the
controller's kind or, by log entry 61, of another. -/
theorem test_report_joins_by_address :
    [StationKind.doorController, .amplifierRack].map (fun kind =>
      after (.testTimerExpiry 0)
        { withPoints with sline := (withStation { lift61 with address := 40, kind }).sline } (·.sline.early)) =
      [some [7], some [7]] := by decide +kernel
/-- R112, R151: a live talk cuts a page from CH0, which goes on at once on CH1: its console's status passes from GRANTED to
WAITING and back, and the console is polled early. -/
def pageOnZero : State :=
  let s : State := { withRacks with sline := (withStation { lift61 with address := 80, kind := .tenantConsole }).sline }
  { s with ann := { s.ann with
      jobs := s.ann.jobs.set 15 (some { page with target := 3, channel := some 0 })
      channels := s.ann.channels.set 0 { Channel.blank with state := .playing, job := some 15, held := 3 }
      tenants := s.ann.tenants.set 0 (some { console := 80, allowed := 3, status := .granted }) } }
def pageOfEntry0 : State :=
  { pageOnZero with ann := { pageOnZero.ann with
      jobs := pageOnZero.ann.jobs.upd 15 (·.map fun x => { x with source := .liveTenant 0 }) } }
theorem test_undone_change_joins :
    after (.liveTalkStart (toUs 30) 1 []) pageOfEntry0
      (fun t => ((t.ann.tenants.get 0).map (·.status), t.sline.early)) = some (some .granted, [7]) := by decide +kernel
/-- R99: a slot freed by a realignment goes to the pair already owed, not to a pair newly needed. -/
def owing : State :=
  let job (m : Fin 64) : Option Job := some (newJob .evacuate (.message m) 1 .continuous none)
  { active with
    seq := { active.seq with floors :=
      (active.seq.floors.set 0 { Floor.blank with state := .evacuate }).set 1 { Floor.blank with state := .alert } }
    ann := { active.ann with
      rows := (active.ann.rows.set 0 { MessageRow.blank with refuge := 20 }).set 1 { MessageRow.blank with alert := 40 }
      jobs := ⟨(List.replicate 16 (job 62)).mapIdx fun i x => if i = 3 then job 10 else x, rfl⟩
      owed := [{ evac := false, msg := 40 }] } }
theorem test_owed_takes_the_freed_slot :
    ((realignJob 3 owing).ann.jobs.get 3).map (·.source) = some (.message 40) ∧ (realignJob 3 owing).ann.owed = [] := by
  decide +kernel
/-- R171: of a list of two whole zones cut after its first place, the first place alone is new. -/
theorem test_list_restored_in_place_order :
    (applyItem (applyItem (applyItem State.blank (.isolation 0 (some (.zone 4)))) (.isolation 1 none))
      (.isolation 2 (some (.zone 4)))).zones.isolation = [{ scope := .zone 4, active := true }] := by decide +kernel

/-! ### States that meet the hypotheses of the statements, in their order -/

def twoWaiting : State := { State.reset with pending := [.turnTimeout, .powerOn] }

theorem witness_StepRunsFrontCommand : twoWaiting.pending = .turnTimeout :: [.powerOn] := rfl

theorem witness_IdleStep_dark : ({ base with powered := false } : State).pending = [] := rfl
theorem witness_IdleStep_due :
    base.pending = [] ∧ due { base with doors := { base.doors with relock := some 0 } } = some .relockTimerExpiry :=
  ⟨rfl, by simp [due, dueList, dueAt, dueIf, first?, base, State.reset, State.blank, out, drained, Zone.blank, Stair.blank]⟩
theorem witness_IdleStep_tick : State.reset.powered = true ∧ State.reset.pending = [] ∧ due State.reset = none :=
  ⟨rfl, rfl, by simp [due, dueList, dueAt, dueIf, first?, State.reset, State.blank, out, drained, Zone.blank, Stair.blank,
    countdownRuns, Rack.blank, waitOver, Channel.blank]⟩

theorem witness_FramesReadBack_short : (Instr.poll (toUs 1) []).wf = true ∧ (frameOf (.poll (toUs 1) [])).isSome = true := by
  decide
theorem witness_FramesReadBack_longest :
    (Instr.untakenFrame { dst := 126, src := 126, cls := 7 } 0xFF (bytes 64)).wf = true ∧
      (frameOf (.untakenFrame { dst := 126, src := 126, cls := 7 } 0xFF (bytes 64))).isSome = true := by decide

theorem witness_step_answers : ∃ t, step twoWaiting = .next t := ⟨_, rfl⟩
theorem witness_StepKeepsLogNumbering : LogInv twoWaiting.log :=
  ⟨by decide, trivial, by
    intro r h
    cases h
    rfl, by decide⟩
theorem witness_StepKeepsQueueOrder : QueueInv twoWaiting.port.queue := ⟨by decide, .nil⟩
theorem witness_StepKeepsStairLoads : LoadInv twoWaiting := by
  have h : ∀ st : Fin 4, (twoWaiting.seq.stairs.get st).committed = 0 ∧ (twoWaiting.seq.stairs.get st).loads = [] := by
    decide +kernel
  exact fun st => ⟨by simp [h st], by simp [h st]⟩
theorem witness_StepKeepsAlarmsInActive : AlarmInv twoWaiting := by
  intro _
  simp [twoWaiting, State.reset, State.blank, Zone.blank]
theorem witness_StepKeepsLinesInLine : LinesInv twoWaiting := by
  have h : ∀ l : Fin 2, (twoWaiting.lines.get l).output =
      (twoWaiting.powered && ((twoWaiting.lines.get l).latch || anyHolds twoWaiting (twoWaiting.lines.get l))) := by
    decide +kernel
  exact h
theorem witness_StepKeepsLinesInLine_notes : NotesInv twoWaiting := rfl

theorem witness_FullQueue_room : (withQueue 31 5).port.queue.length < 32 := by decide
theorem witness_FullQueue_displaces :
    32 ≤ (withQueue 32 5).port.queue.length ∧ (withQueue 32 5).port.queue.getLast? = some (entry 5) ∧
      (entry 4).cls < (entry 5).cls ∧ (entry 5).cls ≤ (entry 5).cls := by decide
theorem witness_LineFollowsConditions :
    ((base.lines.get 0).latched = false ∧ (base.lines.get 0).latch = false) ∧ (base.lines.get 1).latched = true := by
  decide
/-- An append that reaches the watermark, and a car gone OVERDUE where none was. -/
theorem witness_LineFollowsConditions_noted :
    (let s := { base with params := { base.params with logMark := 2 } }
     ¬ s.params.logMark ≤ s.log.sinceRead ∧ s.params.logMark ≤ min 256 (s.log.sinceRead + 1)) ∧
    (let s := { base with lifts := { base.lifts with cars := base.lifts.cars.set 0 (some car) } }
     s.lifts.cars.get 0 = some car ∧ (s.lifts.cars.rows.all fun c => c.all fun c => c.state == .recalling) = true ∧
       ({ car with state := .overdue } : Car).state = .overdue) := by decide +kernel
theorem witness_LogReadFromNumberHeld :
    LogInv State.reset.log ∧ ∃ r ∈ State.reset.log.records, r.seq = 0 :=
  ⟨witness_StepKeepsLogNumbering, _, List.mem_singleton_self _, rfl⟩
theorem witness_LoadStopsAtRefusedEntry :
    (applyRun .stairTable 0 [.stair 60 2 0, .bad] base).2.1 = some 1 ∧
      (applyRun .stairTable 0 [.stair 60 2 0] base).2.1 = none := by decide +kernel

theorem witness_PowerOnServes : base.mgmt.store = [] := rfl
theorem witness_SupplyFailureOpensRelays :
    base.powered = true ∧ base.mgmt.writes = [] ∧
    (let w : StoreWrite := { items := [.key 7], reply := none }
     let s := { base with mgmt := { base.mgmt with writes := [w], store := [.code 0 5, .key 3] } }
     s.mgmt.writes.head? = some w ∧ (∀ y ∈ w.items, storePlace y ≠ storePlace (.code 0 5)) ∧
       s.mgmt.store.Pairwise fun x y => storePlace x < storePlace y) := by decide
def restarting : State := { base with mgmt := { base.mgmt with wait := some 0 } }
theorem witness_RestartKeepsTheLog :
    restarting.powered = true ∧ restarting.mgmt.wait.isSome = true ∧ restarting.sline.txn = none ∧
      restarting.mgmt.writes = [] := by decide

def device : Device := { panel := 2, point := 141 }
theorem witness_DetectPutsZoneInAlarm_single :
    base.powered = true ∧ zoneOf base device = 255 ∧ isolated base device 255 = false ∧
      (base.zones.table.get 255).state = .quiet ∧ effective (base.zones.table.get 255) = .none := by decide +kernel
theorem witness_DetectPutsZoneInAlarm_second :
    (let s := withZone knocked
     let x := s.zones.table.get 255
     s.powered = true ∧ zoneOf s device = 255 ∧ isolated s device 255 = false ∧ x.state = .preAlarm ∧
       effective x ≠ .none ∧ x.first ≠ some device) := by decide +kernel
theorem witness_DetectOpensWindow :
    (let s := withZone verified
     let x := s.zones.table.get 255
     s.powered = true ∧ zoneOf s device = 255 ∧ isolated s device 255 = false ∧ x.state = .quiet ∧
       effective x ≠ .none ∧ knockers s 255 = []) := by decide +kernel
theorem witness_FaultsActOnTheFlagAlone : base.powered = true ∧ isolated base device (zoneOf base device) = false := by
  decide +kernel
theorem witness_FaultsActOnTheFlagAlone_isolated :
    (let s : State := { base with zones := { base.zones with isolation := [{ scope := .zone 255, active := true }] } }
     s.powered = true ∧ isolated s device (zoneOf s device) = true ∧ mapped s device = none) := by decide +kernel
theorem witness_RegimeResetRestores :
    active.powered = true ∧ toBridge active 5 = true ∧ (toUs 9).src = active.addrs.mainPanel ∧
      active.regime.state = .active := by decide
theorem witness_RegimeResetRestores_refused : toBridge active 5 = true ∧ (toUs 8).src ≠ active.addrs.mainPanel := by
  decide
theorem witness_WindowExpiryQuietsZone :
    (let s := withZone knocked
     s.powered = true ∧ (s.zones.table.get 255).state = .preAlarm ∧ (s.zones.table.get 255).window.isSome = true) := by
  decide +kernel

theorem brigade_open (s : State) (h : s.powered = true) (k : s.addrs = base.addrs) : BrigadeOpen (toUs 30) s :=
  ⟨h, by simp [toBridge, k, base, toUs], by simp [inBrigade, k, base, toUs, Tbl.get]⟩
theorem witness_PhaseHoldStopsTheTimer :
    BrigadeOpen (toUs 30) (withSeq .running true) ∧ (withSeq .running true).seq.state = .running ∧
      BrigadeOpen (toUs 30) base ∧ base.seq.state ≠ .running :=
  ⟨brigade_open _ rfl rfl, rfl, brigade_open _ rfl rfl, by decide⟩
theorem witness_PhaseRunStartsFullInterval :
    BrigadeOpen (toUs 30) (withSeq .held false) ∧ (withSeq .held false).seq.state = .held ∧ base.seq.state ≠ .held :=
  ⟨brigade_open _ rfl rfl, rfl, by decide⟩
theorem witness_StepAndExpiryEvaluateOnce :
    BrigadeOpen (toUs 30) (withSeq .held false) ∧ (withSeq .held false).seq.state = .held ∧
      BrigadeOpen (toUs 30) (withSeq .running true) ∧ (withSeq .running true).seq.phase.running = true :=
  ⟨brigade_open _ rfl rfl, rfl, brigade_open _ rfl rfl, rfl⟩
theorem witness_StepAndExpiry_both_ends :
    (phaseEvaluation (withSeq .running true)).seq.state = .running ∧
      (phaseEvaluation { active with seq := (withSeq .running true).seq }).seq.state = .complete := by decide +kernel
theorem witness_GeneralEvacuatePromotesAll :
    BrigadeOpen (toUs 30) base ∧ base.regime.state ≠ .active ∧ BrigadeOpen (toUs 30) stairsAB ∧
      stairsAB.regime.state = .active :=
  ⟨brigade_open _ rfl rfl, by decide, brigade_open _ rfl rfl, rfl⟩
theorem witness_GeneralEvacuate_floors :
    inUse stairsAB 11 = true ∧ (stairsAB.seq.floors.get 11).state = .alert ∧
      (stairsAB.seq.floors.get 63).state ≠ .alert := by decide +kernel
theorem witness_LiveTalkTakesChannelZero :
    BrigadeOpen (toUs 30) withRacks ∧ (∀ j, withRacks.ann.jobs.get j = none) ∧
      (∀ k, (withRacks.ann.channels.get k).job = none) ∧ (1 : FloorSet) &&& served withRacks ≠ 0 :=
  ⟨brigade_open _ rfl rfl, by decide +kernel, by decide +kernel, by decide +kernel⟩
theorem witness_LiveTalkEnds :
    BrigadeOpen (toUs 30) talk ∧ (talk.ann.jobs.get 3).map (·.cls) = some .liveBrigade ∧
      (∀ i, i ≠ 3 → talk.ann.jobs.get i = none) ∧ talk.ann.owed = [] :=
  ⟨brigade_open _ rfl rfl, by decide +kernel, by decide +kernel, rfl⟩
def withCars : State :=
  { base with lifts := { base.lifts with
      cars := (base.lifts.cars.set 0 (some car)).set 4 (some { car with bank := 1, state := .lost }) } }
theorem witness_LiftReleaseFreesTheBank :
    BrigadeOpen (toUs 30) withCars ∧ withCars.regime.state ≠ .active ∧ withCars.lifts.cars.get 0 = some car ∧
      withCars.lifts.cars.get 4 = some { car with bank := 1, state := .lost } ∧ withCars.lifts.cars.get 7 = none ∧
      BrigadeOpen (toUs 30) active ∧ active.regime.state = .active :=
  ⟨brigade_open _ rfl rfl, by decide, rfl, rfl, rfl, brigade_open _ rfl rfl, rfl⟩
theorem witness_UnknownBrigadeCommandAnswered : BrigadeOpen (toUs 30) base := brigade_open _ rfl rfl
theorem witness_UnknownBrigadeCommandAnswered_refused :
    base.powered = true ∧ toBridge base 5 = true ∧ inBrigade base (toUs 29).src = false := by decide

theorem witness_PollGrantsTurn :
    base.powered = true ∧ (toUs 1).dst ≠ 0 ∧ (toUs 1).dst = base.addrs.own := by decide
/-- Gaps before a report frame, after the last one of a turn and with an empty queue; a report frame, and the end of a
turn. -/
theorem witness_SentFrameAdvancesTurn :
    (∀ q ∈ [[], [entry 5]], ∀ n ∈ [0, 4], (withTurn n none q).powered = true ∧
      (withTurn n none q).port.turn = some { master := 1, sent := n, frame := none } ∧
      (withTurn n none q).pending = [] ∧ due (withTurn n none q) = none) ∧
      3 < base.params.framesPerTurn ∧ base.params.framesPerTurn ≤ 4 ∧
      (withTurn 2 (some (.report (entry 5))) [{ entry 5 with sending := true }, entry 5]).port.turn =
        some { master := 1, sent := 2, frame := some (.report (entry 5)) } ∧
      (withTurn 4 (some (.turnEnd 0 false)) []).port.turn =
        some { master := 1, sent := 4, frame := some (.turnEnd 0 false) } := by decide +kernel
/-- A turn 10 ms after its POLL. -/
def started : State := tick (withTurn 0 none [entry 5])
theorem witness_AbandonedTurnAndTimeout :
    (withTurn 0 none [entry 5]).port.turn = some { master := 1, sent := 0, frame := none } ∧
      (withTurn 0 none [entry 5]).port.line.rx = .hunt ∧
      (setRx .p .ready (withTurn 0 none [entry 5])).port.line.rx = .ready ∧
      started.port.turn = some { master := 1, sent := 0, frame := some (.report (entry 5)) } ∧
      ({ base with port := { base.port with timeout := { left := 0, running := true } } } : State).port.timeout.running =
        true := by decide

theorem manage_open (s : State) (h : s.powered = true) (a : s.addrs = base.addrs) (m : s.mgmt = base.mgmt) :
    ManageOpen (toUs 100) 0 s :=
  ⟨h, by simp [toBridge, a, base, toUs], by rw [m]; rfl, by rw [m]; rfl, by rw [m]; rfl⟩
theorem witness_LoadAppliesStairEntry :
    ManageOpen (toUs 100) 0 base ∧ base.regime.state = .quiescent ∧ (1 : Byte).toNat ≤ 1 :=
  ⟨manage_open _ rfl rfl rfl, rfl, by decide⟩
/-- An index past the table, a release mode past FOLLOW, a second entry past the table, and a regime that refuses. -/
theorem witness_LoadAppliesStairEntry_refused :
    4 ≤ (4 : Byte).toNat ∧ 2 ≤ (2 : Byte).toNat ∧ (3 : Fin 4) = 3 ∧
      ManageOpen (toUs 100) 0 active ∧ active.regime.state ≠ .quiescent :=
  ⟨by decide, by decide, rfl, manage_open _ rfl rfl rfl, by decide⟩
/-- The ends of a table's range, of the zone map and of the bank table, which counts from 1. -/
theorem witness_ReadsReturnRecords :
    ManageOpen (toUs 100) 0 base ∧ tableRange .zoneMap = (0, 127) ∧ tableRange .bankTable = (1, 2) :=
  ⟨manage_open _ rfl rfl rfl, by decide, by decide⟩
theorem witness_ReadLogClearsTheCount :
    ManageOpen (toUs 100) 0 (withQueue 30 5) ∧ 1 ≤ (8 : Byte).toNat ∧ (8 : Byte).toNat ≤ 8 ∧
      (withQueue 30 5).port.queue.length + 2 ≤ 32 :=
  ⟨manage_open _ rfl rfl rfl, by decide, by decide, by decide⟩
theorem witness_ReadCaptureEmptiesTheSlot : ManageOpen (toUs 100) 0 base ∧ 4 ≤ (4 : Byte).toNat :=
  ⟨manage_open _ rfl rfl rfl, by decide⟩
def withIsolation (n : Nat) : State :=
  { base with zones := { base.zones with isolation := List.replicate n { scope := .zone 30, active := true } } }
theorem witness_IsolationListChanges :
    ManageOpen (toUs 100) 0 (withIsolation 63) ∧ (parseScope [1, 30]).bind checkScope = some (.zone 30) ∧
      (parseScope [1, 255]).bind checkScope = some (.zone 255) ∧ holdsScope (withIsolation 63) (.zone 255) = false ∧
      (withIsolation 63).zones.isolation.length < 64 ∧ holdsScope (withIsolation 63) (.zone 30) = true :=
  ⟨manage_open _ rfl rfl rfl, by decide, by decide, by decide, by decide, by decide⟩
theorem witness_RackStandbyTurnsRackOff :
    ManageOpen (toUs 100) 0 withRacks ∧ withRacks.regime.state = .quiescent ∧
      (withRacks.ann.racks.get 3).address ≠ 0 ∧ stationLost withRacks 71 = false ∧ rackHeld withRacks 3 = false ∧
      (∀ j, withRacks.ann.jobs.get j = none) :=
  ⟨manage_open _ rfl rfl rfl, rfl, by decide +kernel, by decide +kernel, by decide +kernel, by decide +kernel⟩
theorem witness_CountdownTurnsRackOff :
    ManageOpen (toUs 100) 0 base ∧
      countdownRuns { withRacks with ann := { withRacks.ann with
        racks := withRacks.ann.racks.map fun x => { x with code := 1 } } } 3 = true :=
  ⟨manage_open _ rfl rfl rfl, by decide +kernel⟩
theorem witness_TestDoorReleasesThePoint :
    ManageOpen (toUs 100) 0 withPoints ∧ withPoints.regime.state = .quiescent ∧
      withPoints.doors.points.get 127 = some (point false) :=
  ⟨manage_open _ rfl rfl rfl, rfl, rfl⟩
theorem witness_AcknowledgeClearsLatches :
    ManageOpen (toUs 100) 0 (withQueue 31 5) ∧ (withQueue 31 5).port.queue.length < 32 ∧
      (base.lines.get 1).latched = true ∧ (base.lines.get 0).latched = false ∧ (base.lines.get 0).latch = false :=
  ⟨manage_open _ rfl rfl rfl, by decide, rfl, rfl, rfl⟩
theorem witness_KeyRestartAndUnknownSubcodes :
    ManageOpen (toUs 100) 0 base ∧ base.regime.state = .quiescent ∧ toBridge base 5 = true :=
  ⟨manage_open _ rfl rfl rfl, rfl, by decide⟩

theorem witness_KeyRestart_busy_and_wrong_key :
    ({ base with mgmt := { base.mgmt with writes := [{ items := [.key 7], reply := none }] } } : State).mgmt.writes ≠ [] ∧
      restarting.mgmt.wait.isSome = true ∧ base.mgmt.writes = [] ∧ base.mgmt.wait = none ∧
      (1 : BitVec 32) ≠ base.mgmt.key := by decide

def forwarding : State :=
  { base with
    params := { base.params with defaultForward := true }
    cls := { base.cls with queue := List.replicate 15 (forwardEntry false) } }
theorem witness_ServiceRequestForwarded :
    forwarding.powered = true ∧ (toUs 9).dst ≠ 0 ∧
      matching forwarding (frameWith (toUs 9) kindServiceRequest [7]) = none ∧
      forwarding.params.defaultForward = true ∧ forwarding.cls.queue.length < 16 ∧ forwarding.mgmt.wait = none := by
  decide +kernel
/-- An element that matches requests to station 61, with each of the actions. -/
def requestElement (a : FilterAction) : State :=
  { base with cls := { base.cls with
      filter := base.cls.filter.set 31 { enabled := true, field := .destination, test := .pair 61 61, action := a } } }
theorem witness_ServiceRequestForwarded_actions :
    ∀ a ∈ [FilterAction.forward, .forwardAndLog, .gatedForward, .drop],
      matching (requestElement a) (frameWith { dst := 61, src := 9, cls := 3 } kindServiceRequest [7]) = some 31 ∧
        ((requestElement a).cls.filter.get 31).action = a := by decide +kernel
theorem witness_ServiceRequestForwarded_regimes :
    (requestElement .gatedForward).regime.state = .quiescent ∧ active.regime.state ≠ .quiescent ∧
      base.params.defaultForward = false := by decide
def capturesOurs : FilterElem :=
  { enabled := true, field := .destination, test := .range 5 5, action := .capture 3 }
def capturing : State :=
  { base with cls := { base.cls with filter := base.cls.filter.set 31 capturesOurs } }
theorem witness_FramesCaptured :
    capturing.powered = true ∧ (capturing.cls.filter.get 31).action = .capture 3 ∧
      matching capturing (frameWith (toUs 9) 0x11 []) = some 31 ∧
      matching capturing (frameWith (toUs 9) kindAlarmReport []) = some 31 := by decide +kernel
theorem witness_ReceiverStates :
    base.powered = true ∧ base.sline.txn = none ∧ base.port.turn = none ∧ (trunk base .p).rx = .hunt ∧
      (trunk (setRx .s .ready base) .s).rx = .ready ∧ (trunk (setRx .s (.inFrame [5]) base) .s).rx = .inFrame [5] := by
  decide

theorem witness_ReceiverStates_transaction :
    (withTxn .forward base).sline.txn.map (·.window.isSome) = some true ∧
      (nextTxn (withForward (forwardEntry false))).sline.txn.map (fun x => (x.window, x.candidate)) = some (none, false) ∧
      (nextTxn (withForward (forwardEntry false))).sline.line.rx = .hunt := by decide +kernel

theorem witness_ReceiverStates_turn :
    (let s := withTurn 0 none [entry 5]
     s.port.turn.map (·.frame.isNone) = some true ∧ s.port.line.rx = .hunt ∧ s.pending = [] ∧ due s = none) ∧
      started.port.turn.map (·.frame.isSome) = some true := by decide +kernel

theorem witness_NextTransactionChosen_forward :
    (let s := withForward (forwardEntry false)
     s.powered = true ∧ s.sline.txn = none ∧ s.addrs.own ≠ 0 ∧ firstQueued s = some (0, forwardEntry false) ∧
       1 < s.params.burstLimit) := by decide
theorem witness_NextTransactionChosen_early :
    (let s := { withStation lift61 with sline := { (withStation lift61).sline with early := [7] } }
     s.addrs.own ≠ 0 ∧ firstQueued s = none ∧ s.sline.early = 7 :: [] ∧ s.sline.stations.get 7 = some lift61) := by
  decide
theorem witness_NextTransactionChosen_rotation :
    (let s := { withStation lift61 with
        cls := (withForward (forwardEntry false)).cls, sline := { (withStation lift61).sline with burst := 2 } }
     s.params.burstLimit ≤ s.sline.burst ∧ s.sline.early = [] ∧ rotationNext s = some 7 ∧
       s.sline.stations.get 7 = some lift61) := by decide +kernel
theorem witness_WindowOpensAndLineQuiets :
    (withTxn .forward base).sline.txn.isSome = true ∧ base.sline.quietTimer.isSome = true := by decide
theorem witness_RepliesEndTransactions :
    (let s := withTxn (.poll 7) (withStation lift61)
     s.sline.txn.map (·.kind) = some (.poll 7) ∧ s.sline.txn.map (·.dest) = some 61 ∧
       s.sline.stations.get 7 = some lift61) ∧
    (let s := withTxn .forward (withForward (forwardEntry true))
     s.sline.txn.map (·.kind) = some .forward ∧ s.cls.queue.find? (·.onLine) = some (forwardEntry true)) := by decide
/-- A record loaded with another address during its poll, and a LOST car of the address polled. -/
theorem witness_RepliesEndTransactions_reloaded :
    (lostAt 62).sline.stations.get 7 = some { lift61 with address := 62 } ∧ lift61.lost = false ∧ (62 : Byte) ≠ 61 ∧
      ((lostAt 62).lifts.cars.get 0).map (·.state) = some .lost := by decide
/-- The second NO ANSWER in a row, the third, one of a LOST station, and a forward. -/
theorem witness_NoAnswersCountAndLose :
    (withTxn (.poll 7) (withStation lift61)).sline.txn.map (fun x => (x.kind, x.candidate)) = some (.poll 7, false) ∧
      (withStation lift61).sline.stations.get 7 = some lift61 ∧ lift61.lost = false ∧ ¬ lift61.noAnswer < 2 ∧
      ({ lift61 with noAnswer := 1 } : Station).noAnswer < 2 ∧
      ({ lift61 with noAnswer := 3, lost := true } : Station).lost = true ∧
      (withTxn .forward base).sline.txn.map (fun x => (x.kind, x.candidate)) = some (.forward, false) ∧
      (withTxn .withdrawn base).sline.txn.map (fun x => (x.kind, x.candidate)) = some (.withdrawn, false) := by decide
theorem witness_ForwardLifetimeExpires :
    (withForward (forwardEntry false)).cls.queue[0]? = some (forwardEntry false) ∧
      (forwardEntry false).onLine = false ∧ (withForward (forwardEntry true)).cls.queue[0]? = some (forwardEntry true) ∧
      (forwardEntry true).onLine = true := by decide

theorem witness_DrainsAndOverdueCars :
    (let s := promote .phase 11 stairsAB
     s.powered = true ∧ (s.seq.stairs.get 0).loads = { floor := 11, share := 60, expiry := 60 } :: []) ∧
      withCars.lifts.cars.get 0 = some car ∧ car.state = .recalling := by decide +kernel
theorem witness_MismatchAndTestExpire :
    withPoints.doors.points.get 0 = some (point true) ∧ withPoints.doors.points.get 127 = some (point false) ∧
      (point true).supervision = .mismatch ∧ (point true).test.isSome = true ∧ (point true).commanded = .released ∧
      withPoints.regime.state = .quiescent ∧ closedNow withPoints (point true) = true ∧
      closedNow withPoints (point false) = false := by decide +kernel
theorem witness_RelockExpiryLocksClosedDoors :
    (let s := { withPoints with
        doors := { withPoints.doors with relock := some 0 }
        regime := { state := .restoring, allClearDone := true, relockDone := false } }
     s.powered = true ∧ s.doors.relock.isSome = true ∧ s.regime.relockDone = false ∧
       closedNow s (point true) = true ∧ closedNow s (point false) = false ∧
       s.doors.points.get 0 = some (point true) ∧ s.doors.points.get 127 = some (point false) ∧
       s.doors.points.get 1 = none) := by decide +kernel
def warming : State :=
  { base with ann := { base.ann with
      channels := base.ann.channels.set 1 { Channel.blank with state := .warming, held := 1, warm := some 0 } } }
theorem witness_WarmUpExpiryFaultsRacks :
    warming.powered = true ∧ (warming.ann.channels.get 1).state = .warming ∧
      involved warming (warming.ann.channels.get 1).held = [0] ∧ (warming.ann.racks.get 0).power ≠ .on := by
  decide +kernel
/-- A job warming its floors up: floor 0 of rack 0 alone, and with floor 1 of rack 1, which is ON. -/
def warmingJob (x : Job) (held : FloorSet) : State :=
  let s := withJob 15 { x with state := .playing, channel := some 1 }
    { Channel.blank with state := .warming, job := some 15, held, warm := some 0 } withRacks
  { s with
    seq := { s.seq with floors := s.seq.floors.upd 1 fun f => { f with rack := 1 } }
    ann := { s.ann with racks := s.ann.racks.upd 0 fun r => { r with power := .waking } } }
theorem witness_WarmUpExpiryFaultsRacks_channel :
    ∀ x ∈ [newJob .evacuate (.message 10) 3 .continuous none, newJob .tenant (.liveTenant 15) 3 (.times 1) (some 0)],
      (let s := warmingJob x 3
       (s.ann.channels.get 1).job = some 15 ∧ (∀ i, i ≠ 15 → s.ann.jobs.get i = none) ∧ s.ann.owed = [] ∧
         (∀ l, l ≠ 1 → (s.ann.channels.get l).state = .idle ∧ (s.ann.channels.get l).job = none) ∧
         unready s 3 = 1 ∧ (3 : FloorSet) &&& ~~~ unready s 3 ≠ 0) := by decide +kernel
theorem witness_WarmUpExpiryFaultsRacks_none :
    ∀ x ∈ [newJob .liveBrigade .liveBrigade 1 (.times 1) none, newJob .evacuate (.message 10) 1 .continuous none,
        newJob .test (.message 10) 1 (.times 1) none],
      (let s := warmingJob x 1
       (s.ann.channels.get 1).state = .warming ∧ unready s 1 = 1 ∧ (1 : FloorSet) &&& ~~~ unready s 1 = 0 ∧
         x.target &&& served s &&& ~~~ unready s 1 = 0) := by decide +kernel
theorem witness_PlayAndRestExpire_play :
    (playing.ann.channels.get 1).state = .playing ∧ (playing.ann.channels.get 1).play.isSome = true ∧
      (playing.ann.channels.get 1).job = some 3 ∧ (playing.ann.jobs.get 3).map (·.repeats) = some .continuous ∧
      (∀ i, i ≠ 3 → playing.ann.jobs.get i = none) ∧ restTicks playing .evacuate ≠ 0 := by decide +kernel
theorem witness_PlayAndRestExpire_rest :
    (let x : Job := { newJob .alert (.message 20) 1 .continuous none with state := .resting, rest := some 0 }
     let s := withJob 15 x Channel.blank base
     s.powered = true ∧ s.ann.jobs.get 15 = some x ∧ (∀ i, i ≠ 15 → s.ann.jobs.get i = none) ∧
       x.target &&& served s = 0) := by decide +kernel
theorem witness_PagesEnd :
    paged.powered = true ∧ paged.ann.jobs.get 15 = some page ∧ page.cls = .tenant ∧ page.source = .liveTenant 15 ∧
      (paged.ann.tenants.get 15).isSome = true ∧ (∀ i, i ≠ 15 → paged.ann.jobs.get i = none) ∧ paged.ann.owed = [] ∧
      page.pageLimit.isSome = true ∧ page.hold.isSome = true := by decide +kernel
theorem witness_TestPeriodMakesTestJob :
    (let s := { withRacks with
        params := { withRacks.params with testMessage := 21, testPeriod := 24 }
        ann := { withRacks.ann with testTimer := some 0 } }
     s.powered = true ∧ s.ann.testTimer.isSome = true ∧ s.regime.state = .quiescent ∧ s.params.testMessage ≠ 63 ∧
       (∀ j, s.ann.jobs.get j = none) ∧
       (∀ k, (s.ann.channels.get k).state = .idle ∧ (s.ann.channels.get k).job = none) ∧
       floorsInUse s &&& served s ≠ 0) := by decide +kernel
theorem witness_WrapAndStoreWriteEnd :
    (let w : StoreWrite := { items := [.key 7], reply := some (100, 11, .done, 0) }
     let s := { base with mgmt := { base.mgmt with writes := [w] } }
     s.powered = true ∧ s.mgmt.writes = w :: [] ∧
       ∀ x ∈ w.items, ∀ y ∈ w.items, storePlace y = storePlace x → y = x) := by decide

end Sys2Proof.Tests
end

/-! PROOFS. Brigade commands of the evacuation plan (chapter 2): a report offered, a command answered, and PHASE RUN. -/

namespace Sys2Proof.Safety

open Sys2Proof.Machine

/-! ### A report offered (R124, R125) -/

theorem offer_regime (e : QEntry) (s : State) : (offer e s).regime = s.regime := by
  unfold offer
  split
  · rfl
  · split
    · rfl
    · split <;> simp

theorem offer_notes_owners (e : QEntry) (s : State) : (offer e s).notes.owners = s.notes.owners := by
  unfold offer
  split
  · rfl
  · split
    · rfl
    · split <;> simp

/-- What an offer makes of the queue and the log is taken from the queue and the log alone. -/
theorem offer_silent (e : QEntry) {s t : State} (h : Silent s t) : Silent (offer e s) (offer e t) := by
  obtain ⟨log, queue⟩ := h
  unfold offer
  rw [queue]
  split
  · exact ⟨log, by simp [placeEntry, queue]⟩
  · split
    · exact ⟨log, queue⟩
    · split
      · exact ⟨by simp [log], by simp⟩
      · exact ⟨by simp [log], by simp [queue]⟩

theorem queueReport_offered (dest : Byte) (cls : Nat) (p : Payload) {s t : State} (h : Silent s t) :
    Offered dest cls p s (queueReport dest cls p t) := by
  unfold Offered queueReport now
  rw [h.1]
  exact (offer_silent _ h).symm

/-! ### A brigade command answered (R47, R53, R132) -/

theorem answerCommand_seq (src : Byte) (code : Option Byte) (a : Answer) (before s : State) :
    (answerCommand src code a before s).seq = s.seq :=
  (answerCommand_within [] src code a before s).seq (by simp)

theorem answerCommand_regime (src : Byte) (code : Option Byte) (a : Answer) (before s : State) :
    (answerCommand src code a before s).regime = s.regime := offer_regime _ s

theorem answerCommand_notes_owners (src : Byte) (code : Option Byte) (a : Answer) (before s : State) :
    (answerCommand src code a before s).notes.owners = s.notes.owners := offer_notes_owners _ s

theorem answerCommand_answered (src : Byte) (code : Option Byte) (a : Answer) (before : State) {s t : State}
    (h : Silent s t) : Answered src code a s (answerCommand src code a before t) :=
  ⟨seqReportOf (.command code a) before t, rfl, queueReport_offered src 2 _ h⟩

/-- R132, R133: a BRIGADE COMMAND to the bridge from the brigade list is carried out. -/
theorem brigade_carriedOut {h : Hdr} {s : State} (o : BrigadeOpen h s) (payload : List Byte) (act : State → State) :
    effect (fromP (brigade h payload act)) s = .next (finish s (act (setRx .p .hunt (beginEvent s)))) := by
  obtain ⟨powered, dst, src⟩ := o
  have dst' : toBridge (setRx .p .hunt (beginEvent s)) h.dst = true := dst
  have src' : inBrigade (setRx .p .hunt (beginEvent s)) h.src = true := src
  rw [effect_on _ powered, fromP, brigade, if_pos dst', if_pos src']

theorem takenFrame_within (s : State) : Within [.receivers] s (setRx .p .hunt (beginEvent s)) :=
  (beginEvent_within _ s).trans (setRx_p_within .hunt _)

/-- R53: an event that leaves the floors and the stairs as they are is followed by no floor change notice. -/
theorem floorNotice_none {before s : State} (floors : s.seq.floors = before.seq.floors)
    (stairs : s.seq.stairs = before.seq.stairs) : floorNotice before s = s := by
  have changed : changedFloors before s = 0 := by
    apply BitVec.eq_of_getLsbD_eq
    simp [changedFloors, Machine.setOf, floors, BitVec.getLsbD_ofFnLE]
  have due : noticeDue before s = false := by simp [noticeDue, changed, stairsChanged, stairs]
  simp [floorNotice, due]

/-! ### Commands of the phase timer (R49, R51) -/

/-- A change of the state and the phase timer of the plan and of nothing else. -/
def PhaseOnly (s t : State) : Prop := t = { s with seq := { s.seq with state := t.seq.state, phase := t.seq.phase } }

namespace PhaseOnly

variable {s t : State}

theorem floors (h : PhaseOnly s t) : t.seq.floors = s.seq.floors := by rw [h]

theorem stairs (h : PhaseOnly s t) : t.seq.stairs = s.seq.stairs := by rw [h]

theorem regime (h : PhaseOnly s t) : t.regime = s.regime := by rw [h]

theorem notes (h : PhaseOnly s t) : t.notes = s.notes := by rw [h]

theorem silent (h : PhaseOnly s t) : Silent s t := by
  rw [h]
  exact ⟨rfl, rfl⟩

theorem within (h : PhaseOnly s t) : Within [.seq] s t := by
  rw [h]
  exact .of_only (fun b hb => by cases b <;> simp_all [same]) rfl rfl rfl

end PhaseOnly

/-- R53: a command that changes the state and the phase timer alone is answered, and no notice follows. -/
theorem planCommand_phaseOnly (src : Byte) (c : BrigadeCommand) {f : State → Answer × State} {s : State}
    (h : PhaseOnly s (f s).2) :
    planCommand src c f s = answerCommand src (some (brigadeCode c)) (f s).1 s (f s).2 :=
  floorNotice_none (by rw [answerCommand_seq, h.floors]) (by rw [answerCommand_seq, h.stairs])

/-- R151: an answered command that has changed nothing the polls are taken from ends with no station joining the
early-poll list. -/
theorem finish_answerCommand (src : Byte) (code : Option Byte) (a : Answer) (before : State) {s t : State}
    (w : Within [.receivers, .seq] s t) (floors : t.seq.floors = s.seq.floors) (regime : t.regime = s.regime)
    (owners : t.notes.owners = []) :
    finish s (answerCommand src code a before t) = settleLines s (answerCommand src code a before t) := by
  have k := w.trans (answerCommand_within _ src code a before t)
  have polls : SamePolls s (answerCommand src code a before t) :=
    ⟨k.lifts (by simp), k.doors (by simp), k.ann (by simp), by rw [answerCommand_seq, floors], k.params (by simp),
      by rw [answerCommand_regime, regime], fun i => by rw [k.stations (by simp)]⟩
  exact finish_same polls (by rw [answerCommand_notes_owners, owners])

/-- R47, R49, R51: a Sequencer command that changes the state and the phase timer alone, carried out: the plan is what the
command makes of it, and one report answers. -/
theorem phaseCommand_carriedOut {h : Hdr} {s : State} (o : BrigadeOpen h s) (payload : List Byte) (c : BrigadeCommand)
    {f : State → Answer × State} (hf : ∀ u, PhaseOnly u (f u).2) :
    let e := setRx .p .hunt (beginEvent s)
    ∃ t, effect (fromP (brigade h payload (planCommand h.src c f))) s = .next t ∧
      Within [.receivers, .seq, .lines] s t ∧ t.seq = (f e).2.seq ∧
      Answered h.src (some (brigadeCode c)) (f e).1 s t := by
  intro e
  have only : PhaseOnly e (f e).2 := hf e
  have begun : Within [.receivers, .seq] s (f e).2 :=
    ((takenFrame_within s).mono (by simp)).trans (only.within.mono (by simp))
  have answered := begun.trans (answerCommand_within _ h.src (some (brigadeCode c)) (f e).1 e (f e).2)
  have owners : (f e).2.notes.owners = [] := by rw [only.notes]; rfl
  refine ⟨_, ?_, (answered.mono (by simp)).trans ((settleLines_within s _).mono (by simp)),
    answerCommand_seq _ _ _ _ _, answerCommand_answered _ _ _ e only.silent⟩
  rw [brigade_carriedOut o, planCommand_phaseOnly _ _ only,
    finish_answerCommand _ _ _ _ begun only.floors only.regime owners]

/-! ### PHASE RUN (R51) -/

theorem run_held {s : State} (held : s.seq.state = .held) :
    run s = (.accepted, { s with seq := { s.seq with
      state := .running, phase := { left := ticks s.params.phaseInterval, running := true } } }) := by
  simp [run, held, startPhase]

theorem run_not_held {s : State} (other : s.seq.state ≠ .held) : run s = (.noChange, s) := by
  simp [run, other]

theorem run_phaseOnly (s : State) : PhaseOnly s (run s).2 := by
  by_cases held : s.seq.state = .held
  · rw [run_held held]
    rfl
  · rw [run_not_held held]
    rfl

/-- Settles O25: PHASE RUN changes the state and the phase timer of the plan alone, to RUNNING and the full interval in
HELD and not at all elsewhere. -/
theorem phaseRunStartsFullInterval : Obligations.PhaseRunStartsFullInterval := by
  intro h tail s o
  obtain ⟨t, step, within, plan, answered⟩ :=
    phaseCommand_carriedOut o (brigadeCode .phaseRun :: tail) .phaseRun run_phaseOnly
  refine ⟨t, step, within, fun held => ?_, fun other => ?_⟩
  · rw [run_held (s := setRx .p .hunt (beginEvent s)) held] at plan answered
    exact ⟨plan, answered⟩
  · rw [run_not_held (s := setRx .p .hunt (beginEvent s)) other] at plan answered
    exact ⟨plan, answered⟩

end Sys2Proof.Safety

/-! PROOFS. The trunk lines and their frames (chapter 6): the report queue. -/

namespace Sys2Proof.Safety

open Sys2Proof.Machine

/-! ### The three outcomes of an offer (R125) -/

/-- R125: in a queue of fewer than 32 entries the entry is placed. -/
theorem offer_of_room (e : QEntry) {s : State} (room : s.port.queue.length < 32) :
    offer e s = { s with port := placeEntry e s.port } :=
  if_pos room

/-- R125: in a full queue the last entry gives way to a more urgent one. -/
theorem offer_of_more_urgent {e w : QEntry} {s : State} (full : 32 ≤ s.port.queue.length)
    (last : s.port.queue.getLast? = some w) (urgent : e.cls < w.cls) :
    offer e s = appendLog .reportLost .reportQueue (.reportLost (payloadKind w.payload) w.cls true)
      { s with port := { s.port with queue := place e s.port.queue.dropLast } } := by
  simp only [offer, if_neg full.not_gt, last, if_pos urgent]

/-- R125: in a full queue an entry no more urgent than the last one is itself dropped. -/
theorem offer_of_not_more_urgent {e w : QEntry} {s : State} (full : 32 ≤ s.port.queue.length)
    (last : s.port.queue.getLast? = some w) (notUrgent : w.cls ≤ e.cls) :
    offer e s = appendLog .reportLost .reportQueue (.reportLost (payloadKind e.payload) e.cls false) s := by
  simp only [offer, if_neg full.not_gt, last, if_neg notUrgent.not_gt]

/-- Settles O10, outcome by outcome of the offer; `offer_within` says what none of them changes. -/
theorem fullQueueGivesWayToUrgent : Obligations.FullQueueGivesWayToUrgent := by
  intro e s
  refine ⟨fun room => ?placed, fun w full last => ⟨fun urgent => ?displaces, fun notUrgent => ?dropped⟩,
    offer_within [] e s⟩
  case placed =>
    rw [offer_of_room e room]
    exact ⟨rfl, rfl⟩
  case displaces =>
    rw [offer_of_more_urgent full last urgent]
    exact ⟨by rw [appendLog_port], appendLog_log ..⟩
  case dropped =>
    rw [offer_of_not_more_urgent full last notUrgent]
    exact ⟨by rw [appendLog_port], appendLog_log ..⟩

end Sys2Proof.Safety

/-! PROOFS. Station supervision (chapter 8): the end of a transaction without the reply it awaits, and NO ANSWER. -/

namespace Sys2Proof.Safety

open Sys2Proof.Machine

/-! ### The S-line free again (R131) -/

/-- The event begun, the receiver of the S-line in state `r`, and no transaction: where the outcome of a transaction is
dealt with. -/
def lineFreed (r : Rx) (s : State) : State :=
  let u := setRx .s r (beginEvent s)
  { u with sline := { u.sline with txn := none } }

theorem lineFreed_within (r : Rx) (s : State) : Within [.txn, .receivers] s (lineFreed r s) :=
  (beginEvent_within _ s).trans
    (((setRx_within .s r _).mono (by simp)).trans ((setTxn_within none _).mono (by simp)))

theorem lineFreed_silent (r : Rx) (s : State) : Silent s (lineFreed r s) := ⟨rfl, rfl⟩

@[simp] theorem lineFreed_txn (r : Rx) (s : State) : (lineFreed r s).sline.txn = none := rfl
@[simp] theorem lineFreed_stations (r : Rx) (s : State) : (lineFreed r s).sline.stations = s.sline.stations := rfl
@[simp] theorem lineFreed_regime (r : Rx) (s : State) : (lineFreed r s).regime = s.regime := rfl
@[simp] theorem lineFreed_owners (r : Rx) (s : State) : (lineFreed r s).notes.owners = [] := rfl

/-! ### The outcome of each kind of transaction (R131, R145, R158) -/

section Outcomes

variable {x : Txn} {s : State} (r : Rx)

theorem endTxn_poll_unanswered {i : Fin 48} (txn : s.sline.txn = some x) (kind : x.kind = .poll i) :
    endTxn none (setRx .s r (beginEvent s)) = pollUnanswered i (lineFreed r s) := by
  have txn' : (setRx .s r (beginEvent s)).sline.txn = some x := txn
  simp only [endTxn, txn', kind]
  rfl

theorem endTxn_withdrawn (answer : Option (List Byte)) (txn : s.sline.txn = some x) (kind : x.kind = .withdrawn) :
    endTxn answer (setRx .s r (beginEvent s)) = lineFreed r s := by
  have txn' : (setRx .s r (beginEvent s)).sline.txn = some x := txn
  simp only [endTxn, txn', kind]
  rfl

/-- R145, R146: how the entry ON LINE fares, by the answer to it. -/
def forwardEnded : Option (List Byte) → State → State
  | some payload => forwardAnswered payload
  | none => forwardUnanswered

theorem endTxn_forward (answer : Option (List Byte)) (txn : s.sline.txn = some x) (kind : x.kind = .forward) :
    endTxn answer (setRx .s r (beginEvent s)) = forwardEnded answer (lineFreed r s) := by
  have txn' : (setRx .s r (beginEvent s)).sline.txn = some x := txn
  cases answer <;> simp only [endTxn, txn', kind] <;> rfl

end Outcomes

/-- All that the end of a forward does: the entry ON LINE, if there is one, leaves the queue and one report is offered. -/
theorem forwardEnded_cases (answer : Option (List Byte)) (s : State) :
    forwardEnded answer s = s ∨ ∃ dest p, forwardEnded answer s = queueReport dest 4 p (dropOnLine s) := by
  cases queued : onLine s with
  | none =>
    left
    cases answer <;> simp [forwardEnded, forwardAnswered, forwardUnanswered, queued]
  | some e =>
    right
    cases answer <;> simp only [forwardEnded, forwardAnswered, forwardUnanswered, queued] <;> exact ⟨_, _, rfl⟩

theorem forwardEnded_within (answer : Option (List Byte)) (s : State) : Within [.cls] s (forwardEnded answer s) := by
  cases answer with
  | some payload => exact forwardAnswered_within payload s
  | none => exact forwardUnanswered_within s

theorem forwardEnded_regime (answer : Option (List Byte)) (s : State) : (forwardEnded answer s).regime = s.regime := by
  rcases forwardEnded_cases answer s with same | ⟨dest, p, reported⟩
  · rw [same]
  · rw [reported, queueReport, offer_regime]
    rfl

theorem forwardEnded_owners (answer : Option (List Byte)) (s : State) :
    (forwardEnded answer s).notes.owners = s.notes.owners := by
  rcases forwardEnded_cases answer s with same | ⟨dest, p, reported⟩
  · rw [same]
  · rw [reported, queueReport, offer_notes_owners]
    rfl

/-! ### NO ANSWER (R155) -/

/-- R155: the record of a station after one more NO ANSWER. -/
def afterNoAnswer (st : Station) : Station :=
  if st.lost then st else if st.noAnswer < 2 then { st with noAnswer := st.noAnswer + 1 }
    else { st with lost := true, noAnswer := 3 }

theorem afterNoAnswer_address (st : Station) : (afterNoAnswer st).address = st.address := by
  unfold afterNoAnswer
  split_ifs <;> rfl

theorem afterNoAnswer_kind (st : Station) : (afterNoAnswer st).kind = st.kind := by
  unfold afterNoAnswer
  split_ifs <;> rfl

theorem setStation_self {i : Fin 48} {x : Option Station} {s : State} (h : s.sline.stations.get i = x) :
    setStation i x s = s := by
  have stations : s.sline.stations.set i x = s.sline.stations := by
    refine Tbl.ext_get fun j => ?_
    rw [Tbl.get_set]
    split
    · next e => rw [← e, h]
    · rfl
  rw [setStation, stations]

section NoAnswer

variable {i : Fin 48} {st : Station} {s : State}

/-- R155: a NO ANSWER of a LOST station, or one that is not the third, does nothing but to the record. -/
theorem pollUnanswered_counted (inUse : s.sline.stations.get i = some st) (few : st.lost = true ∨ st.noAnswer < 2) :
    pollUnanswered i s = setStation i (some (afterNoAnswer st)) s := by
  by_cases lost : st.lost = true
  · simp [pollUnanswered, inUse, afterNoAnswer, lost, setStation_self inUse]
  · have below : st.noAnswer < 2 := few.resolve_left lost
    simp [pollUnanswered, inUse, afterNoAnswer, lost, below]

/-- R155, R156: the third NO ANSWER in a row is logged and reported, and the owner is given the LOST notice. -/
theorem pollUnanswered_third (inUse : s.sline.stations.get i = some st) (online : st.lost = false)
    (third : ¬ st.noAnswer < 2) :
    pollUnanswered i s = notifyLost (afterNoAnswer st) (reportStation i (afterNoAnswer st)
      (appendLog .stationLost (.stationRecord i) (.station st.address st.kind)
        (setStation i (some (afterNoAnswer st)) s))) := by
  simp [pollUnanswered, inUse, afterNoAnswer, online, third]

/-- R155: whatever else a NO ANSWER does, of the station records it changes the one polled alone. -/
theorem pollUnanswered_stations (inUse : s.sline.stations.get i = some st) :
    (pollUnanswered i s).sline.stations = s.sline.stations.set i (some (afterNoAnswer st)) := by
  by_cases few : st.lost = true ∨ st.noAnswer < 2
  · rw [pollUnanswered_counted inUse few, setStation_sline_stations]
  · obtain ⟨online, third⟩ := not_or.mp few
    rw [pollUnanswered_third inUse (by simpa using online) third,
      (notifyLost_within _ _).stations (by simp), (reportStation_within [] i _ _).stations (by simp),
      (appendLog_within [] _ _ _ _).stations (by simp), setStation_sline_stations]

end NoAnswer

/-! ### The end of an event that leaves the polls as they are (R151) -/

/-- R151: what happens to a transaction, the receivers, the S forward queue and the counts of the stations alone changes no
poll, and the event ends with no station joining the early-poll list. -/
theorem finish_of_same_commands {s t : State} (k : Keeps [.txn, .receivers, .stations, .cls] s t)
    (regime : t.regime = s.regime) (owners : t.notes.owners = [])
    (records : ∀ i, (t.sline.stations.get i).map (fun x => (x.address, x.kind)) =
      (s.sline.stations.get i).map fun x => (x.address, x.kind)) : finish s t = settleLines s t :=
  finish_same ⟨k.lifts (by simp), k.doors (by simp), k.ann (by simp), by rw [k.seq (by simp)], k.params (by simp),
    by rw [regime], records⟩ owners

theorem finish_lineFreed (r : Rx) (s : State) : finish s (lineFreed r s) = settleLines s (lineFreed r s) :=
  finish_of_same_commands ((lineFreed_within r s).mono (by simp)).toKeeps rfl rfl fun _ => rfl

theorem finish_forwardEnded (answer : Option (List Byte)) (r : Rx) (s : State) :
    finish s (forwardEnded answer (lineFreed r s)) = settleLines s (forwardEnded answer (lineFreed r s)) := by
  have ended := forwardEnded_within answer (lineFreed r s)
  have k := ((lineFreed_within r s).mono (by simp)).trans
    (ended.mono (cs := [.txn, .receivers, .stations, .cls]) (by simp))
  refine finish_of_same_commands k.toKeeps ?_ ?_ fun i => ?_
  · rw [forwardEnded_regime, lineFreed_regime]
  · rw [forwardEnded_owners, lineFreed_owners]
  · rw [ended.stations (by simp), lineFreed_stations]

theorem finish_counted {i : Fin 48} {st : Station} {s : State} (r : Rx) (inUse : s.sline.stations.get i = some st) :
    finish s (setStation i (some (afterNoAnswer st)) (lineFreed r s)) =
      settleLines s (setStation i (some (afterNoAnswer st)) (lineFreed r s)) := by
  have k := ((lineFreed_within r s).mono (by simp)).trans ((setStation_within i (some (afterNoAnswer st)) _).mono
    (cs := [.txn, .receivers, .stations, .cls]) (by simp))
  refine finish_of_same_commands k.toKeeps rfl rfl fun j => ?_
  rw [setStation_sline_stations, lineFreed_stations, Tbl.get_set]
  split
  · next e => simp [← e, inUse, afterNoAnswer_address, afterNoAnswer_kind]
  · rfl

/-! ### The commands that end a transaction (R130, R131) -/

section Commands

variable {c : Instr} {x : Txn} {s : State}

/-- R131: the window that closes with no frame begun and the candidate rejected end the transaction without an answer. -/
theorem exec_unanswered (powered : s.powered = true) (txn : s.sline.txn = some x)
    (h : c = .answerWindowClose ∧ x.candidate = false ∨ ∃ cause, c = .rejectedCandidate cause) :
    ∃ r, exec c s = .next (finish s (endTxn none (setRx .s r (beginEvent s)))) := by
  have txn' : (beginEvent s).sline.txn = some x := txn
  rcases h with ⟨rfl, noCandidate⟩ | ⟨cause, rfl⟩
  · refine ⟨s.sline.line.rx, (effect_on closeWindow powered).trans ?_⟩
    simp only [closeWindow, txn', noCandidate]
    rfl
  · refine ⟨if cause = .silence then .ready else .hunt, (effect_on (rejectCandidate cause) powered).trans ?_⟩
    simp only [rejectCandidate, txn']

/-- R130, R131: a good frame is the answer the transaction awaits, or ends it without one. -/
theorem effect_takeReply (h : Hdr) (kind : Byte) (payload : List Byte) (powered : s.powered = true)
    (txn : s.sline.txn = some x) :
    ∃ answer, effect (takeReply h kind payload) s =
      .next (finish s (endTxn answer (setRx .s .hunt (beginEvent s)))) := by
  have txn' : (setRx .s .hunt (beginEvent s)).sline.txn = some x := txn
  refine ⟨if h.src = x.dest ∧ kind = awaited x then some payload else none, (effect_on _ powered).trans ?_⟩
  simp only [takeReply, txn']

/-- R131: every command that ends a transaction, `reply` the frame of the kind it awaits. -/
theorem exec_ends {reply : Hdr → List Byte → Instr} {kind : Byte}
    (takes : ∀ h payload u, exec (reply h payload) u = effect (takeReply h kind payload) u)
    (powered : s.powered = true) (txn : s.sline.txn = some x)
    (h : c = .answerWindowClose ∧ x.candidate = false ∨ (∃ cause, c = .rejectedCandidate cause) ∨
      ∃ h payload, c = reply h payload) :
    ∃ r answer, exec c s = .next (finish s (endTxn answer (setRx .s r (beginEvent s)))) := by
  rcases or_assoc.mpr h with unanswered | ⟨hdr, payload, rfl⟩
  · obtain ⟨r, step⟩ := exec_unanswered powered txn unanswered
    exact ⟨r, none, step⟩
  · rw [takes]
    exact ⟨.hunt, effect_takeReply hdr kind payload powered txn⟩

end Commands

/-! ### The three kinds of transaction (O51) -/

/-- R155: what the end of an event without an answer to a poll leaves behind. -/
theorem unansweredPoll_within (r : Rx) (i : Fin 48) (s : State) :
    Within [.txn, .receivers, .stations, .lifts, .doors, .ann, .allClear, .early, .lines] s
      (finish s (pollUnanswered i (lineFreed r s))) :=
  ((lineFreed_within r s).mono (by simp)).trans
    (((pollUnanswered_within i _).mono (by simp)).trans ((finish_within s _).mono (by simp)))

/-- R155: a poll that ends without an answer leaves the line free and counts against its record alone. -/
theorem unansweredPoll_sline {i : Fin 48} {st : Station} {s : State} (r : Rx) (inUse : s.sline.stations.get i = some st) :
    let t := finish s (pollUnanswered i (lineFreed r s))
    t.sline.txn = none ∧ t.sline.stations = s.sline.stations.set i (some (afterNoAnswer st)) := by
  intro t
  have ended := finish_within s (pollUnanswered i (lineFreed r s))
  have polled := pollUnanswered_within i (lineFreed r s)
  refine ⟨?_, ?_⟩
  · exact (ended.only .txn (by simp)).1.trans (polled.only .txn (by simp)).1
  · exact (ended.stations (by simp)).trans (pollUnanswered_stations (s := lineFreed r s) inUse)

/-- R155: before the third NO ANSWER, and of a LOST station, nothing is logged, reported or noted. -/
theorem unansweredPoll_counted {i : Fin 48} {st : Station} {s : State} (r : Rx)
    (inUse : s.sline.stations.get i = some st) (few : st.lost = true ∨ st.noAnswer < 2) :
    let t := finish s (pollUnanswered i (lineFreed r s))
    Silent s t ∧ Within [.txn, .receivers, .stations, .lines] s t := by
  rw [pollUnanswered_counted (s := lineFreed r s) inUse few, finish_counted r inUse]
  exact ⟨lineFreed_silent r s, ((lineFreed_within r s).mono (by simp)).trans
    (((setStation_within i _ _).mono (by simp)).trans ((settleLines_within s _).mono (by simp)))⟩

theorem forwardEnded_sline (answer : Option (List Byte)) (r : Rx) (s : State) :
    let t := finish s (forwardEnded answer (lineFreed r s))
    t.sline.txn = none ∧ t.sline.stations = s.sline.stations ∧ Within [.txn, .receivers, .cls, .lines] s t := by
  rw [finish_forwardEnded]
  have ended := forwardEnded_within answer (lineFreed r s)
  refine ⟨(ended.only .txn (by simp)).1, ended.stations (by simp), ?_⟩
  exact ((lineFreed_within r s).mono (by simp)).trans
    ((ended.mono (by simp)).trans ((settleLines_within s _).mono (by simp)))

theorem withdrawnPoll_ended (r : Rx) (s : State) :
    let t := finish s (lineFreed r s)
    t.sline.txn = none ∧ Silent s t ∧ Within [.txn, .receivers, .lines] s t := by
  rw [finish_lineFreed]
  exact ⟨rfl, lineFreed_silent r s,
    ((lineFreed_within r s).mono (by simp)).trans ((settleLines_within s _).mono (by simp))⟩

/-- Settles O51, by the kind of the transaction: each of the commands ends it as `endTxn` does. -/
theorem noAnswersCountAndLose : Obligations.NoAnswersCountAndLose := by
  refine ⟨fun i x st c s powered txn kind inUse ends => ?poll, fun x c s powered txn kind ends => ?forward,
    fun x c s powered txn kind ends => ?withdrawn⟩
  case poll =>
    obtain ⟨r, step⟩ := exec_unanswered powered txn ends
    obtain ⟨freed, stations⟩ := unansweredPoll_sline r inUse
    rw [endTxn_poll_unanswered r txn kind] at step
    refine ⟨_, step, freed, ?_, fun j other => ?_, unansweredPoll_counted r inUse, unansweredPoll_within r i s⟩
    · rw [stations, Tbl.get_set_self, afterNoAnswer]
    · rw [stations, Tbl.get_set_ne _ _ other.symm]
  case forward =>
    obtain ⟨r, answer, step⟩ := exec_ends (fun _ _ _ => rfl) powered txn ends
    rw [endTxn_forward r answer txn kind] at step
    exact ⟨_, step, forwardEnded_sline answer r s⟩
  case withdrawn =>
    obtain ⟨r, answer, step⟩ := exec_ends (fun _ _ _ => rfl) powered txn ends
    rw [endTxn_withdrawn r answer txn kind] at step
    exact ⟨_, step, withdrawnPoll_ended r s⟩

end Sys2Proof.Safety

/-! PROOFS. The laws of every state (sections 9.2, 6.5, 2.2, 1.7 and 9.3): the numbering of the event log, the order of
the report queue, the loads of the stairs, ALARM outside ACTIVE, and the common lines. -/

namespace Sys2Proof.Safety

-- One proof at a time: the package as one text then compiles within the memory it is given.
set_option Elab.async false

open Sys2Proof.Machine

/-! ### Lists in order -/

/-- An entry put behind those that rank no higher keeps a list in order. -/
theorem pairwise_insert {α : Type} (rank : α → Nat) (e : α) {l : List α} (h : l.Pairwise fun a b => rank a ≤ rank b) :
    (l.takeWhile (fun x => rank x ≤ rank e) ++ e :: l.dropWhile (fun x => rank x ≤ rank e)).Pairwise
      fun a b => rank a ≤ rank b := by
  induction l with
  | nil => simp
  | cons a l ih =>
    obtain ⟨first, rest⟩ := List.pairwise_cons.mp h
    by_cases c : rank a ≤ rank e
    · simp only [List.takeWhile_cons, List.dropWhile_cons, c, decide_true, if_true, List.cons_append]
      refine List.pairwise_cons.mpr ⟨fun b hb => ?_, ih rest⟩
      rcases List.mem_append.mp hb with hb | hb
      · exact first b ((List.takeWhile_prefix _).subset hb)
      · rcases List.mem_cons.mp hb with rfl | hb
        · exact c
        · exact first b ((List.dropWhile_suffix _).subset hb)
    · simp only [List.takeWhile_cons, List.dropWhile_cons, c, decide_false, Bool.false_eq_true, if_false, List.nil_append]
      refine List.pairwise_cons.mpr ⟨fun b hb => ?_, h⟩
      rcases List.mem_cons.mp hb with rfl | hb
      · omega
      · have := first b hb
        omega

/-! ### The event log (R161, R163) -/

theorem consecutive_iff_isChain (l : List LogRecord) : Consecutive l ↔ l.IsChain fun a b => b.seq = a.seq + 1 := by
  induction l with
  | nil => simp [Consecutive]
  | cons a l ih =>
    cases l with
    | nil => simp [Consecutive]
    | cons b l => rw [Consecutive, ih, List.isChain_cons_cons]

/-- R161: the record that an append makes. -/
def newRecord (l : EventLog) (k : EventKind) (x : Subject) (d : Detail) : LogRecord :=
  { seq := l.nextSeq, stamp := l.stamp, kind := k, subject := x, detail := d }

/-- R161: of the old records and the new one the 256 newest are held. -/
theorem appendRecord_records (l : EventLog) (k : EventKind) (x : Subject) (d : Detail) :
    (appendRecord l k x d).records =
      (l.records ++ [newRecord l k x d]).drop ((l.records ++ [newRecord l k x d]).length - 256) := by
  simp only [appendRecord, newRecord]

theorem appendRecord_newest (l : EventLog) (k : EventKind) (x : Subject) (d : Detail) :
    (appendRecord l k x d).records.getLast? = some (newRecord l k x d) := by
  rw [appendRecord_records, List.drop_append_of_le_length (by simp), List.getLast?_append]
  rfl

theorem appendRecord_inv {l : EventLog} (h : LogInv l) (k : EventKind) (x : Subject) (d : Detail) :
    LogInv (appendRecord l k x d) := by
  obtain ⟨size, numbered, next, count⟩ := h
  refine ⟨?size, ?numbered, fun r newest => ?next, ?count⟩
  case size =>
    rw [appendRecord_records, List.length_drop, List.length_append, List.length_singleton]
    omega
  case numbered =>
    rw [consecutive_iff_isChain] at numbered ⊢
    rw [appendRecord_records]
    refine List.IsChain.drop (List.isChain_append.mpr ⟨numbered, List.isChain_singleton _, fun a ha b hb => ?_⟩) _
    obtain rfl : newRecord l k x d = b := by simpa using hb
    exact next a ha
  case next =>
    rw [appendRecord_newest] at newest
    obtain rfl := Option.some.inj newest
    rfl
  case count => exact Nat.min_le_left _ _

theorem Appends.inv {l m : EventLog} (a : Appends l m) (h : LogInv l) : LogInv m := by
  induction a with
  | refl => exact h
  | append k x d _ ih => exact appendRecord_inv ih k x d

/-- R160: the law of the log says nothing of the timestamp counter. -/
theorem LogInv.stamped {l : EventLog} (h : LogInv l) (x : Stamp) : LogInv { l with stamp := x } :=
  ⟨h.size, h.numbered, h.next, h.count⟩

theorem LogInv.read {l : EventLog} (h : LogInv l) : LogInv { l with sinceRead := 0 } :=
  ⟨h.size, h.numbered, h.next, Nat.zero_le _⟩

theorem emptyLog_inv : LogInv emptyLog := ⟨Nat.zero_le _, trivial, by simp [emptyLog], Nat.zero_le _⟩

/-! ### The report queue (R124, R125) -/

theorem place_inv {q : List QEntry} (h : QueueInv q) (room : q.length < 32) (e : QEntry) : QueueInv (place e q) := by
  refine ⟨?_, pairwise_insert QEntry.cls e h.ordered⟩
  have n : (q.takeWhile fun x => x.cls ≤ e.cls).length + (q.dropWhile fun x => x.cls ≤ e.cls).length = q.length := by
    rw [← List.length_append, List.takeWhile_append_dropWhile]
  simp only [place, List.length_append, List.length_cons]
  omega

theorem QueueInv.sublist {q r : List QEntry} (h : QueueInv q) (sub : r.Sublist q) : QueueInv r :=
  ⟨sub.length_le.trans h.size, h.ordered.sublist sub⟩

theorem Offers.inv {q r : List QEntry} (o : Offers q r) (h : QueueInv q) : QueueInv r := by
  induction o with
  | refl => exact h
  | placed e _ room ih => exact place_inv ih room e
  | @displaced r e w _ last _ ih =>
    refine place_inv (ih.sublist (List.dropLast_sublist r)) ?_ e
    have size := ih.size
    have some_entry : r ≠ [] := by rintro rfl; simp at last
    have := List.length_pos_iff.mpr some_entry
    rw [List.length_dropLast]
    omega

/-- The marks of the entries do not matter to the order of the queue. -/
theorem QueueInv.of_classes {q r : List QEntry} (h : QueueInv q) (same : r.map (·.cls) = q.map (·.cls)) :
    QueueInv r := by
  have length : r.length = q.length := by simpa using congrArg List.length same
  refine ⟨length ▸ h.size, ?_⟩
  have p : (q.map (·.cls)).Pairwise (· ≤ ·) := List.pairwise_map.mpr h.ordered
  rw [← same] at p
  exact List.pairwise_map.mp p

theorem unmark_inv {q : List QEntry} (h : QueueInv q) : QueueInv (unmark q) :=
  h.of_classes (by simp [unmark])

theorem unmark_inv_iff {q : List QEntry} : QueueInv (unmark q) ↔ QueueInv q :=
  ⟨fun h => h.of_classes (by simp [unmark]), unmark_inv⟩

/-! ### The laws together -/

/-- A part of an event that keeps the laws of every state, and the supply. -/
structure Lawful (s t : State) : Prop where
  log : LogInv s.log → LogInv t.log
  queue : QueueInv s.port.queue → QueueInv t.port.queue
  loads : LoadInv s → LoadInv t
  alarms : AlarmInv s → AlarmInv t
  supply : t.powered = s.powered

theorem Lawful.refl (s : State) : Lawful s s := ⟨id, id, id, id, rfl⟩

theorem Lawful.trans {s t u : State} (h : Lawful s t) (k : Lawful t u) : Lawful s u :=
  ⟨k.log ∘ h.log, k.queue ∘ h.queue, k.loads ∘ h.loads, k.alarms ∘ h.alarms, k.supply.trans h.supply⟩

theorem Lawful.ite {s t u : State} {p : Prop} [Decidable p] (h : Lawful s t) (k : Lawful s u) :
    Lawful s (if p then t else u) := by
  split
  · exact h
  · exact k

theorem Lawful.foldl {α : Type} {f : State → α → State} (h : ∀ s a, Lawful s (f s a)) (l : List α) (s : State) :
    Lawful s (l.foldl f s) := by
  induction l generalizing s with
  | nil => exact .refl _
  | cons a l ih => exact (h s a).trans (ih _)

theorem Lawful.forEach {n : Nat} {f : Fin n → State → State} (h : ∀ i s, Lawful s (f i s)) (s : State) :
    Lawful s (forEach n f s) :=
  Lawful.foldl (fun s i => h i s) _ s

theorem LoadInv.of_stairs {s t : State} (h : LoadInv s) (stairs : t.seq.stairs = s.seq.stairs) : LoadInv t := by
  intro st
  rw [stairs]
  exact h st

/-- R23: with no zone newly in ALARM, the regime may do all but leave ACTIVE. -/
theorem AlarmInv.of_states {s t : State} (h : AlarmInv s)
    (zones : ∀ z, (t.zones.table.get z).state = .alarm → (s.zones.table.get z).state = .alarm)
    (regime : s.regime.state = .active → t.regime.state = .active) : AlarmInv t :=
  fun other z alarm => h (fun active => other (regime active)) z (zones z alarm)

/-- R23, R27: what `Within` allows the regime never leaves ACTIVE. -/
theorem Within.stays_active {bs : List Block} {s t : State} (w : Within bs s t) (active : s.regime.state = .active) :
    t.regime.state = .active :=
  (w.state (by rw [active]; exact Regime.noConfusion)).trans active

theorem Keeps.lawful {bs : List Block} {s t : State} (k : Keeps bs s t) (loads : LoadInv s → LoadInv t)
    (alarms : AlarmInv s → AlarmInv t) (m : Block.supply ∉ bs := by decide) : Lawful s t :=
  ⟨k.log.inv, k.queue.inv, loads, alarms, (k.supply m).1⟩

/-- A part of an event that touches neither the plan, nor the zones, nor the supply is lawful. -/
theorem Within.lawful {bs : List Block} {s t : State} (w : Within bs s t)
    (m : Block.supply ∉ bs ∧ Block.seq ∉ bs ∧ Block.zones ∉ bs := by decide) : Lawful s t :=
  w.toKeeps.lawful (fun h => h.of_stairs (by rw [w.seq m.2.1]))
    (fun h => h.of_states (fun z a => by rwa [w.zones m.2.2] at a) w.stays_active) m.1

/-- A part of an event that touches the plan and not the zones is lawful when it keeps the loads of the stairs. -/
theorem Within.lawful_plan {bs : List Block} {s t : State} (w : Within bs s t) (loads : LoadInv s → LoadInv t)
    (m : Block.supply ∉ bs ∧ Block.zones ∉ bs := by decide) : Lawful s t :=
  w.toKeeps.lawful loads (fun h => h.of_states (fun z a => by rwa [w.zones m.2] at a) w.stays_active) m.1

/-- A part of an event that touches the zones and not the plan is lawful when it brings no zone to ALARM. -/
theorem Within.lawful_zones {bs : List Block} {s t : State} (w : Within bs s t)
    (states : ∀ z, (t.zones.table.get z).state = .alarm → (s.zones.table.get z).state = .alarm)
    (m : Block.supply ∉ bs ∧ Block.seq ∉ bs := by decide) : Lawful s t :=
  w.toKeeps.lawful (fun h => h.of_stairs (by rw [w.seq m.2])) (fun h => h.of_states states w.stays_active) m.1

/-! ### The plan and the loads of the stairs (R32, R41, R46) -/

theorem setFloor_lawful (f : Fin 64) (x : Floor) (s : State) : Lawful s (setFloor f x s) :=
  (setFloor_within f x s).lawful_plan fun h => h.of_stairs rfl

/-- A stair replaced by one whose loads balance keeps the law of the stairs. -/
theorem setStair_lawful {st : Fin 4} {x : Stair} {s : State} (hx : LoadInv s → StairInv x) :
    Lawful s (setStair st x s) := by
  refine (setStair_within st x s).lawful_plan fun h i => ?_
  rw [setStair_seq_stairs, Tbl.get_set]
  split
  · exact hx h
  · exact h i

/-- The configuration and the service of a stair do not matter to its loads. -/
theorem StairInv.of_loads {x y : Stair} (h : StairInv x) (loads : y.loads = x.loads)
    (committed : y.committed = x.committed) : StairInv y :=
  ⟨by rw [committed, loads]; exact h.balance, by rw [loads]; exact h.ordered⟩

theorem insertLoad_sum (e : Load) (ls : List Load) :
    ((insertLoad e ls).map (·.share)).sum = (ls.map (·.share)).sum + e.share := by
  have split := congrArg (fun l => (l.map (·.share)).sum)
    (List.takeWhile_append_dropWhile (p := fun x : Load => decide (x.expiry ≤ e.expiry)) (l := ls))
  simp only [List.map_append, List.sum_append] at split
  simp only [insertLoad, List.map_append, List.map_cons, List.sum_append, List.sum_cons]
  omega

theorem charge_lawful (f : Fin 64) (share : Nat) (s : State) (st : Fin 4) : Lawful s (charge f share s st) :=
  setStair_lawful fun h =>
    ⟨by rw [insertLoad_sum, (h st).balance], pairwise_insert Load.expiry _ (h st).ordered⟩

theorem drainStair_lawful (st : Fin 4) (s : State) : Lawful s (drainStair st s) := by
  unfold drainStair
  extract_lets x
  split
  · exact .refl s
  · next e rest loads =>
    refine setStair_lawful fun h => ?_
    obtain ⟨balance, ordered⟩ := h st
    change x.committed = _ at balance
    change x.loads.Pairwise _ at ordered
    rw [loads] at balance ordered
    exact ⟨by simp [balance], (List.pairwise_cons.mp ordered).2⟩

theorem noteNoStair_lawful (f : Fin 64) (s : State) : Lawful s (noteNoStair f s) := by
  unfold noteNoStair
  split
  · exact .refl s
  · exact (setFloor_lawful _ _ s).trans (appendLog_within [] _ _ _ _).lawful

theorem promote_lawful (cause : PromotionCause) (f : Fin 64) (s : State) : Lawful s (promote cause f s) := by
  unfold promote
  refine Lawful.trans ?_ ((setFloor_lawful _ _ _).trans (appendLog_within [] _ _ _ _).lawful)
  exact .ite (noteNoStair_lawful f s) (.ite (.refl s) (.foldl (fun s st => charge_lawful f _ s st) _ s))

theorem evaluate_lawful (fs : List (Fin 64)) (k : Nat) (s : State) : Lawful s (evaluate fs k s) := by
  induction fs generalizing k s with
  | nil => cases k <;> exact .refl s
  | cons f fs ih =>
    cases k with
    | zero => exact .refl s
    | succ k =>
      unfold evaluate
      split
      · exact (noteNoStair_lawful f s).trans (ih _ _)
      · exact .ite ((promote_lawful .phase f s).trans (ih _ _)) (.refl s)

theorem startPhase_lawful (s : State) : Lawful s (startPhase s) :=
  (startPhase_within s).lawful_plan fun h => h.of_stairs rfl

theorem complete_lawful (s : State) : Lawful s (complete s) :=
  (complete_within s).lawful_plan fun h => h.of_stairs rfl

theorem completeIfDone_lawful (s : State) : Lawful s (completeIfDone s) := .ite (complete_lawful s) (.refl s)

theorem phaseEvaluation_lawful (s : State) : Lawful s (phaseEvaluation s) :=
  (evaluate_lawful _ _ s).trans (completeIfDone_lawful _)

theorem seqReport_lawful (dest : Byte) (cause : SeqCause) (before s : State) : Lawful s (seqReport dest cause before s) :=
  (seqReport_within [] dest cause before s).lawful

theorem withdrawFor_lawful (z : Fin 256) (s : State) : Lawful s (withdrawFor z s) := by
  unfold withdrawFor
  extract_lets x
  split
  · next st _ =>
    have out : Lawful s (setStair st { s.seq.stairs.get st with inService := false } s) :=
      setStair_lawful fun h => (h st).of_loads rfl rfl
    exact .ite (out.trans (appendLog_within [] _ _ _ _).lawful) (.refl s)
  · exact .refl s

theorem computeUrgencies_lawful (s : State) : Lawful s (computeUrgencies s) :=
  (computeUrgencies_within s).lawful_plan fun h => h.of_stairs rfl

theorem promoteImmediate_lawful (s : State) : Lawful s (promoteImmediate s) :=
  .foldl (fun s f => promote_lawful .immediate f s) _ s

theorem alertFloors_lawful (s : State) : Lawful s (alertFloors s) :=
  (alertFloors_within s).lawful_plan fun h => h.of_stairs rfl

theorem withdrawAll_lawful (s : State) : Lawful s (forEach 256 withdrawFor s) :=
  Lawful.foldl (fun s z => withdrawFor_lawful z s) _ s

theorem endEntry_lawful (s : State) : Lawful s
    (if noAlert s then complete s else startPhase { s with seq := { s.seq with state := .running } }) :=
  .ite (complete_lawful s) (((setSeqState_within .running s).lawful_plan fun h => h.of_stairs rfl).trans
    (startPhase_lawful _))

theorem seqEntry_lawful (s : State) : Lawful s (seqEntry s) := by
  have clock : Lawful s { s with seq := { s.seq with planClock := 0, planTicks := 0 } } :=
    (startClock_within s).lawful_plan fun h => h.of_stairs rfl
  unfold seqEntry
  extract_lets plan started withdrawn promoted
  have withdraws : Lawful started withdrawn := withdrawAll_lawful _
  have promotes : Lawful withdrawn promoted :=
    ((alertFloors_lawful _).trans (computeUrgencies_lawful _)).trans (promoteImmediate_lawful _)
  exact clock.trans (withdraws.trans (promotes.trans (endEntry_lawful promoted)))

theorem seqZoneChange_lawful (entered : List (Fin 256)) (s : State) : Lawful s (seqZoneChange entered s) := by
  have planned := ((Lawful.foldl (fun s z => withdrawFor_lawful z s) entered s).trans (computeUrgencies_lawful _)).trans
    ((promoteImmediate_lawful _).trans (completeIfDone_lawful _))
  exact .ite (planned.trans (seqReport_lawful _ _ _ _)) planned

theorem promoteGeneral_lawful (s : State) : Lawful s (promoteGeneral s) :=
  (Lawful.foldl (fun s f => promote_lawful .general f s) _ s).trans (complete_lawful _)

theorem seqReset_lawful (s : State) : Lawful s (seqReset s) := by
  refine (seqReset_within s).lawful_plan fun h st => ?_
  rw [show (seqReset s).seq.stairs = s.seq.stairs.map resetStair from rfl, Tbl.get_map]
  exact ⟨rfl, .nil⟩

/-! ### Notices and the regime (R15, R22 to R27, R53) -/

theorem floorNotice_lawful (before s : State) : Lawful s (floorNotice before s) := (floorNotice_within before s).lawful

theorem zoneNotice_lawful (entered : List (Fin 256)) (s : State) : Lawful s (zoneNotice entered s) := by
  unfold zoneNotice
  exact (seqZoneChange_lawful entered s).trans ((liftZoneChange_within _).lawful.trans (floorNotice_lawful s _))

theorem setRegime_state (st : Regime) (cause : RegimeCause) (s : State) : (setRegime st cause s).regime.state = st := by
  unfold setRegime queueReport
  rw [offer_regime, appendLog_regime]
  rfl

theorem abandonRestart_regime (s : State) : (abandonRestart s).regime = s.regime := by
  unfold abandonRestart
  split
  · rw [appendLog_regime]
  · rfl

/-- R22: whatever the plan and the other blocks make of it, an entry to ACTIVE leaves the regime ACTIVE. -/
theorem goActive_active (cause : RegimeCause) {plan : State → State} (hp : ∀ s, Within [.seq] s (plan s)) (s : State) :
    (goActive cause plan s).regime.state = .active := by
  unfold goActive
  extract_lets entered sline begun
  have regime : begun.regime = entered.regime := abandonRestart_regime _
  exact (entry_keeps hp begun).stays_active ((congrArg RegimeCtl.state regime).trans (setRegime_state ..))

theorem blocksEntry_lawful (s : State) : Lawful s (annEntry (doorEntry (liftEntry s))) :=
  (liftEntry_within s).lawful.trans ((doorEntry_within _).lawful.trans (annEntry_within _).lawful)

theorem goActive_lawful (cause : RegimeCause) {plan : State → State} (hp : ∀ s, Within [.seq] s (plan s))
    (loads : ∀ s, Lawful s (plan s)) (s : State) : Lawful s (goActive cause plan s) := by
  refine (goActive_keeps cause hp s).lawful (fun h => ?_) fun _ other => absurd (goActive_active cause hp s) other
  unfold goActive
  refine (blocksEntry_lawful _).loads ?_
  exact (loads _).loads (h.of_stairs (by rw [(leaveQuiescent_keeps cause s).seq (by simp)]))

/-! ### Zones and the regime (R15, R20, R23 to R25) -/

theorem markIsolated_state (e : IsoEntry) (s : State) (z : Fin 256) :
    ((markIsolated e s).zones.table.get z).state = (s.zones.table.get z).state := by
  unfold markIsolated
  split
  · split
    · rw [setZone_zones_table, Tbl.get_set]
      split
      · next same => rw [same]
      · rfl
    · rfl
  · rfl

theorem reexamine_state (s : State) (z : Fin 256) :
    ((reexamine s).zones.table.get z).state = (s.zones.table.get z).state := by
  unfold reexamine
  extract_lets list marked t
  split
  · rfl
  · exact foldl_keeps (fun u => (u.zones.table.get z).state) (fun u e => markIsolated_state e u z) list _

theorem reexamine_lawful (s : State) : Lawful s (reexamine s) :=
  (reexamine_within s).lawful_zones fun z a => by rwa [reexamine_state] at a

/-- A zone replaced by one that is in ALARM only if it was. -/
theorem setZone_lawful {z : Fin 256} {x : Zone} {s : State} (hx : x.state = .alarm → (s.zones.table.get z).state = .alarm) :
    Lawful s (setZone z x s) := by
  refine (setZone_within z x s).lawful_zones fun y alarm => ?_
  rw [setZone_zones_table, Tbl.get_set] at alarm
  split at alarm
  · next same => exact same ▸ hx alarm
  · exact alarm

theorem planEntry_lawful (s : State) : Lawful s (planEntry s) := (seqEntry_lawful s).trans (seqReport_lawful _ _ _ _)

theorem zonesChanged_lawful (entered : List (Fin 256)) (s : State) : Lawful s (zonesChanged entered s) := by
  unfold zonesChanged
  split
  · exact .ite (zoneNotice_lawful _ s) (.refl s)
  · exact .ite (zoneNotice_lawful _ s) (goActive_lawful _ planEntry_within planEntry_lawful s)

/-- R22: zones that enter ALARM leave the regime ACTIVE, and a zone change in ACTIVE keeps it. -/
theorem zonesChanged_active {entered : List (Fin 256)} {s : State} (h : entered ≠ [] ∨ s.regime.state = .active) :
    (zonesChanged entered s).regime.state = .active := by
  cases entered with
  | nil =>
    have active := h.resolve_left (by simp)
    rw [zonesChanged, if_pos active]
    exact (zoneNotice_within _ s).stays_active active
  | cons z zs =>
    by_cases active : s.regime.state = .active
    · rw [zonesChanged, if_pos active]
      exact (zoneNotice_within _ s).stays_active active
    · rw [zonesChanged, if_neg active]
      exact goActive_active _ planEntry_within s

/-- Announcing the zones changed is records and reports alone. -/
theorem announced_within (seq : Byte) (zs : List (Fin 256)) (s : State) : Within [] s (zs.foldl (announceZone seq) s) :=
  Within.foldl (announceZone_within [] seq) zs s

theorem announceZones_zones (seq : Byte) (before s : State) : (announceZones seq before s).zones = s.zones :=
  (announceZones_keeps seq before s).zones (by simp)

theorem announceZones_lawful (seq : Byte) (before s : State) : Lawful s (announceZones seq before s) := by
  unfold announceZones
  extract_lets zs t
  exact .ite (.refl s) ((announced_within seq zs s).lawful.trans (zonesChanged_lawful _ t))

theorem mem_changedZones {before s : State} {z : Fin 256} :
    z ∈ changedZones before s ↔ (s.zones.table.get z).state ≠ (before.zones.table.get z).state := by
  simp [changedZones]

/-- R23: a zone that has come to be in ALARM has brought the regime to ACTIVE by the end of the announcement. -/
theorem announceZones_alarms {before s : State} (seq : Byte) (h : AlarmInv before)
    (regime : s.regime.state = before.regime.state) : AlarmInv (announceZones seq before s) := by
  intro other z alarm
  rw [announceZones_zones] at alarm
  have entered : z ∈ changedZones before s ∨ (before.zones.table.get z).state = .alarm := by
    rw [mem_changedZones, alarm]
    by_cases c : (before.zones.table.get z).state = .alarm
    · exact .inr c
    · exact .inl (Ne.symm c)
  apply other
  have active : (before.zones.table.get z).state = .alarm → s.regime.state = .active := fun was => by
    by_contra not
    exact h (by rwa [regime] at not) z was
  unfold announceZones
  extract_lets zs t
  split
  · next none =>
    refine active (entered.resolve_left ?_)
    rw [show changedZones before s = [] from none]
    simp
  · refine zonesChanged_active ?_
    rcases entered with changed | was
    · exact .inl (List.ne_nil_of_mem (List.mem_filter.mpr ⟨changed, by simp [alarm]⟩))
    · exact .inr ((announced_within seq zs s).stays_active (active was))

theorem takeDetect_lawful (d : Device) (z : Fin 256) (seq : Byte) (s : State) : Lawful s (takeDetect d z seq s) := by
  have detected := detectZones_within d z s
  refine (takeDetect_keeps d z seq s).lawful (fun h => ?_) (fun h => ?_)
  · exact (announceZones_lawful seq s _).loads (h.of_stairs (by rw [detected.seq (by simp)]))
  · have regime : (detectZones d z s).regime = s.regime := by
      unfold detectZones
      extract_lets _ _ t
      exact foldl_keeps State.regime (f := fun u y => setZone y (toAlarm s d (u.zones.table.get y)) u)
        (fun _ _ => rfl) _ t
    exact announceZones_alarms seq h (by rw [regime])

theorem takeFault_lawful (isSet : Bool) (z : Fin 256) (seq : Byte) (s : State) : Lawful s (takeFault isSet z seq s) := by
  unfold takeFault
  extract_lets x
  have flagged : Lawful s (setZone z { x with fault := isSet } s) := setZone_lawful id
  exact .ite (.refl s) (flagged.trans ((appendLog_within [] _ _ _ _).lawful.trans (reportZone_within [] z _).lawful))

theorem intake_lawful (kind : AlarmKind) (d : Device) (seq : Byte) {f : Fin 256 → State → State}
    (hf : ∀ z s, Lawful s (f z s)) (s : State) : Lawful s (intake kind d seq f s) := by
  unfold intake
  extract_lets z u
  have noted : Lawful s u := (noteUnmapped_within [] kind d seq s).lawful
  exact noted.trans (.ite (appendLog_within [] _ _ _ _).lawful (hf z u))

theorem windowExpiry_lawful (z : Fin 256) (s : State) : Lawful s (windowExpiry z s) := by
  unfold windowExpiry
  extract_lets x t
  refine .ite ?_ (.refl s)
  have quieted : Lawful s t := setZone_lawful fun alarm => by simp at alarm
  exact quieted.trans ((appendLog_within [] _ _ _ _).lawful.trans
    ((announceZones_lawful 0 s _).trans (reexamine_lawful _)))

theorem resetZones_quiet (s : State) (z : Fin 256) : ((resetZones s).zones.table.get z).state = .quiet := by
  simp only [resetZones, Tbl.get_map, resetZone]
  split
  · next quiet => exact quiet
  · rfl

theorem resetZones_lawful (s : State) : Lawful s (resetZones s) :=
  (resetZones_within s).lawful_zones fun z alarm => by rw [resetZones_quiet] at alarm; cases alarm

/-- R25: with every zone out of ALARM the regime may leave ACTIVE. -/
theorem goRestoring_lawful {s : State} (clear : ∀ z, (s.zones.table.get z).state ≠ .alarm) : Lawful s (goRestoring s) := by
  have keeps := goRestoring_keeps s
  refine keeps.lawful (fun h st => ?_) fun _ _ z => by rw [keeps.zones (by simp)]; exact clear z
  unfold goRestoring
  extract_lets flags cleared restoring
  rw [(annReset_within _).seq (by simp [annBlocks, completionBlocks]), (doorReset_within _).seq (by simp),
    (seqReport_within [] _ _ _ _).seq (by simp)]
  have k : LoadInv restoring := h.of_stairs (by rw [(setRegime_keeps .restoring .regimeReset cleared).seq (by simp)])
  exact (seqReset_lawful restoring).loads k st

theorem acceptReset_lawful (s : State) : Lawful s (acceptReset s) := by
  unfold acceptReset
  split
  · exact .refl s
  · refine (resetZones_lawful s).trans ((reexamine_lawful _).trans (goRestoring_lawful fun z => ?_))
    rw [reexamine_state, resetZones_quiet]
    exact ZoneState.noConfusion
  · exact .ite (.refl s) ((resetZones_lawful s).trans ((announceZones_lawful 0 s _).trans (reexamine_lawful _)))

theorem takeReset_lawful (src : Byte) (s : State) : Lawful s (takeReset src s) :=
  .ite (acceptReset_lawful s) (appendLog_within [] _ _ _ s).lawful

theorem appendIsolation_lawful (c : Scope) (s : State) : Lawful s (appendIsolation c s) :=
  (appendIsolation_within c s).lawful_zones fun z alarm => by
    rwa [appendIsolation, markIsolated_state] at alarm

theorem removeIsolation_lawful (c : Scope) (s : State) : Lawful s (removeIsolation c s) := by
  unfold removeIsolation
  extract_lets old u
  have dropped : Lawful s u := (onlyZones_within _).lawful_zones fun _ => id
  cases c with
  | points panel low high => exact dropped
  | zone z =>
    have included : Lawful u (setZone z { u.zones.table.get z with isolated := false } u) := setZone_lawful id
    exact dropped.trans (included.trans (reportZone_within [] z _).lawful)

/-! ### Commands of the brigade (R48 to R52) -/

theorem planCommand_lawful (src : Byte) (c : BrigadeCommand) {f : State → Answer × State}
    (hf : ∀ s, Lawful s (f s).2) (s : State) : Lawful s (planCommand src c f s) := by
  unfold planCommand
  exact (hf s).trans ((answerCommand_within [] _ _ _ _ _).lawful.trans (floorNotice_lawful s _))

theorem ownerCommand_lawful (src : Byte) (c : BrigadeCommand) {f : State → Answer × State}
    (hf : ∀ s, Lawful s (f s).2) (s : State) : Lawful s (ownerCommand src c f s) := by
  unfold ownerCommand
  exact (hf s).trans (answerCommand_within [] _ _ _ _ _).lawful

theorem PhaseOnly.lawful {s t : State} (h : PhaseOnly s t) : Lawful s t :=
  h.within.lawful_plan fun k => k.of_stairs h.stairs

theorem hold_phaseOnly (s : State) : PhaseOnly s (hold s).2 := by
  unfold hold
  split <;> rfl

/-- One phase evaluation, and the phase timer started again while the plan runs (R44, R50). -/
theorem evaluated_lawful (s : State) : Lawful s
    (if (phaseEvaluation s).seq.state = .running then startPhase (phaseEvaluation s) else phaseEvaluation s) :=
  .ite ((phaseEvaluation_lawful s).trans (startPhase_lawful _)) (phaseEvaluation_lawful s)

theorem stepPlan_lawful (s : State) : Lawful s (stepPlan s).2 := by
  unfold stepPlan
  split
  · exact phaseEvaluation_lawful s
  · exact evaluated_lawful s
  · exact .refl s

theorem phaseExpiry_lawful (s : State) : Lawful s (phaseExpiry s) :=
  .ite ((evaluated_lawful s).trans ((seqReport_lawful _ _ _ _).trans (floorNotice_lawful s _))) (.refl s)

theorem evacuateAll_lawful (src : Byte) (s : State) : Lawful s (evacuateAll src s) :=
  .ite (planCommand_lawful src .generalEvacuate (f := fun s => (.accepted, promoteGeneral s)) promoteGeneral_lawful s)
    (goActive_lawful _ (generalEntry_within src) (fun u => ((seqEntry_lawful u).trans (promoteGeneral_lawful _)).trans
      (answerCommand_within [] _ _ _ _ _).lawful) s)

/-! ### Loads (R170) -/

theorem applyZoneMap_lawful {i : Fin 128} {e : Option (Nat × Nat × Nat × Nat)} {s t : State}
    (h : applyZoneMap i e s = some t) : Lawful s t := by
  have k : ∀ m, Lawful s (reexamine { s with zones := { s.zones with map := s.zones.map.set i m } }) := by
    intro m
    have put : Lawful s { s with zones := { s.zones with map := s.zones.map.set i m } } :=
      (onlyZones_within _).lawful_zones fun _ => id
    exact put.trans (reexamine_lawful _)
  unfold applyZoneMap at h
  extract_lets put at h
  split at h
  · cases h; exact k none
  · split at h
    · split at h
      · cases h; exact k _
      · cases h
    · cases h

theorem applyZone_lawful {z : Fin 256} {kind floor stair ver group knock quiet : Nat} {s t : State}
    (h : applyZone z kind floor stair ver group knock quiet s = some t) : Lawful s t := by
  unfold applyZone at h
  split at h
  · split at h
    · cases h
    · cases h; exact setZone_lawful id
  · cases h

theorem applyFloor_lawful {f : Fin 64} {occupancy mask rack : Nat} {s t : State}
    (h : applyFloor f occupancy mask rack s = some t) : Lawful s t := by
  unfold applyFloor at h
  split at h
  · cases h
  · next r _ =>
    split at h
    · cases h
    · cases h
      exact (leaveRack_within f r s).lawful.trans ((setFloor_lawful f _ _).trans (arbiter_within _).lawful)

theorem applyStair_lawful {st : Fin 4} {capacity window mode : Nat} {s t : State}
    (h : applyStair st capacity window mode s = some t) : Lawful s t := by
  unfold applyStair at h
  split at h
  · cases h
  · cases h; exact setStair_lawful fun k => (k st).of_loads rfl rfl

theorem indexed_lawful {n i : Nat} {f : Fin n → Option State} {s t : State}
    (k : ∀ x t, f x = some t → Lawful s t) (h : (index? n i).bind f = some t) : Lawful s t := by
  obtain ⟨x, -, hx⟩ := Option.bind_eq_some_iff.mp h
  exact k x t hx

theorem started_lawful {o : Option State} {s t : State} (k : ∀ u, o = some u → Lawful s u)
    (h : o.map startTest = some t) : Lawful s t := by
  obtain ⟨u, hu, rfl⟩ := Option.map_eq_some_iff.mp h
  exact (k u hu).trans (startTest_within u).lawful

theorem applyEntry_lawful {tb : TableId} {i : Nat} {e : Entry} {s t : State} (h : applyEntry tb i e s = some t) :
    Lawful s t := by
  unfold applyEntry at h
  split at h
  · exact indexed_lawful (fun _ _ => applyZoneMap_lawful) h
  · exact indexed_lawful (fun _ _ => applyZone_lawful) h
  · exact indexed_lawful (fun _ _ => applyFloor_lawful) h
  · exact indexed_lawful (fun _ _ => applyStair_lawful) h
  · split at h
    · cases h
    · exact indexed_lawful (fun _ _ k => (applyBank_within k).lawful) h
  · exact indexed_lawful (fun _ _ k => (applyCar_within k).lawful) h
  · exact indexed_lawful (fun _ _ k => (applyDoorPoint_within k).lawful) h
  · exact indexed_lawful (fun _ _ k => (applyStation_within k).lawful) h
  · exact indexed_lawful (fun _ _ k => (applyMessages_within k).lawful) h
  · exact indexed_lawful (fun _ _ k => (applyTenant_within k).lawful) h
  · exact indexed_lawful (fun _ _ k => (applyFilter_within k).lawful) h
  · exact started_lawful (fun _ k => (applyParam_within k).lawful) h
  · split at h
    · exact started_lawful (fun _ k => (applyCommon_within k).lawful) h
    · split at h
      · exact started_lawful (fun _ k => (applyCommon_within k).lawful) h
      · cases h
  · exact (applyAddress_within h).lawful
  · cases h

theorem applyRun_lawful (tb : TableId) (i : Nat) (es : List Entry) (s : State) : Lawful s (applyRun tb i es s).2.2 := by
  induction es generalizing i s with
  | nil => exact .refl s
  | cons e es ih =>
    unfold applyRun
    split
    · exact .refl s
    · next u hu => exact (applyEntry_lawful hu).trans ((reportChanges_within s u).lawful.trans (ih (i + 1) _))

theorem reply_lawful (dst sub : Byte) (r : Reply) (index : Nat) (data : List Byte) (s : State) :
    Lawful s (reply dst sub r index data s) := (reply_within [] dst sub r index data s).lawful

theorem runLoad_lawful (src : Byte) (tb : TableId) (start : Nat) (es : List Entry) (s : State) :
    Lawful s (runLoad src tb start es s) := by
  unfold runLoad
  extract_lets r answer
  have applied : Lawful s r.2.2 := applyRun_lawful tb start es s
  exact .ite (applied.trans (reply_lawful _ _ _ _ _ _))
    (applied.trans ((appendLog_within [] _ _ _ _).lawful.trans (beginWrite_within _ _).lawful))

theorem loadTable_lawful (src : Byte) (params : List Byte) (s : State) : Lawful s (loadTable src params s) := by
  unfold loadTable
  extract_lets start count
  split
  · exact reply_lawful _ _ _ _ _ s
  · refine .ite (reply_lawful _ _ _ _ _ s) ?_
    split
    · exact reply_lawful _ _ _ _ _ s
    · exact .ite (runLoad_lawful src _ start _ s) (reply_lawful _ _ _ _ _ s)

/-! ### The other management commands -/

theorem isolateScope_lawful (src : Byte) (params : List Byte) (s : State) : Lawful s (isolateScope src params s) := by
  unfold isolateScope
  split
  · exact reply_lawful _ _ _ _ _ s
  · exact .ite (reply_lawful _ _ _ _ _ s) (.ite (reply_lawful _ _ _ _ _ s)
      ((appendIsolation_lawful _ s).trans (storeIsolation_within _ _ _).lawful))

theorem deIsolateScope_lawful (src : Byte) (params : List Byte) (s : State) : Lawful s (deIsolateScope src params s) := by
  unfold deIsolateScope
  split
  · exact reply_lawful _ _ _ _ _ s
  · exact .ite ((removeIsolation_lawful _ s).trans (storeIsolation_within _ _ _).lawful) (reply_lawful _ _ _ _ _ s)

/-- An update of the event log alone that keeps its law. -/
theorem onlyLog_lawful {s : State} (l : EventLog) (h : LogInv s.log → LogInv l) : Lawful s { s with log := l } :=
  ⟨h, id, id, id, rfl⟩

theorem readLog_lawful (src : Byte) (params : List Byte) (s : State) : Lawful s (readLog src params s) := by
  unfold readLog
  extract_lets start count frames
  exact .ite (reply_lawful _ _ _ _ _ s)
    ((onlyLog_lawful _ LogInv.read).trans (replyData_within [] _ _ _ _).lawful)

theorem checked_lawful (src sub : Byte) (key : BitVec 32) (enough : Bool) {act : State → State}
    (ha : ∀ s, Lawful s (act s)) (s : State) : Lawful s (checked src sub key enough act s) :=
  .ite (reply_lawful _ _ _ _ _ s) (.ite (reply_lawful _ _ _ _ _ s) (.ite (reply_lawful _ _ _ _ _ s) (ha s)))

theorem filterFrame_lawful (f : Frame) (s : State) : Lawful s (filterFrame f s) := (filterFrame_within f s).lawful

theorem manage_lawful (h : Hdr) (key : BitVec 32) (sub : Byte) (params : List Byte) (enough : Bool) {act : State → State}
    (ha : ∀ s, Lawful s (act s)) (s : State) : Lawful s (manage h key sub params enough act s) :=
  .ite (checked_lawful _ _ _ _ ha s) (filterFrame_lawful _ s)

/-! ### Turns and receivers (R119, R126 to R129) -/

/-- An update of the P-line port alone that keeps the law of the report queue. -/
theorem onlyPort_lawful {s : State} (p : Port) (h : QueueInv s.port.queue → QueueInv p.queue) :
    Lawful s { s with port := p } := ⟨id, h, id, id, rfl⟩

theorem breakTurn_lawful (s : State) : Lawful s (breakTurn s) := .ite (onlyPort_lawful _ unmark_inv) (.refl s)

theorem grantTurn_lawful (master : Byte) (s : State) : Lawful s (grantTurn master s) := onlyPort_lawful _ unmark_inv

theorem setRx_lawful (l : Line) (r : Rx) (s : State) : Lawful s (setRx l r s) := (setRx_within l r s).lawful

theorem startFrame_lawful (s : State) : Lawful s (startFrame s) := by
  refine ⟨fun h => ?_, fun h => ?_, fun h => h.of_stairs ?_, fun h => ?_, ?_⟩
  · have : (startFrame s).log = s.log := by
      unfold startFrame takeFrame
      repeat' split
      all_goals rfl
    rwa [this]
  · rwa [← unmark_inv_iff, startFrame_queue, unmark_inv_iff]
  · rw [show (startFrame s).seq = s.seq from startFrame_same (b := .seq) (by simp) s]
  · have regime : (startFrame s).regime = s.regime := by
      unfold startFrame takeFrame
      repeat' split
      all_goals rfl
    have zones : (startFrame s).zones = s.zones := startFrame_same (b := .zones) (by simp) s
    exact h.of_states (fun z a => by rwa [zones] at a) fun a => by rwa [regime]
  · exact (startFrame_same (b := .supply) (by simp) s).1

theorem frameSent_lawful (s : State) : Lawful s (frameSent s) := by
  unfold frameSent
  extract_lets u v
  have started : Lawful s u := startFrame_lawful s
  split
  · exact started
  · have freed : Lawful u v := setRx_lawful .p .hunt u
    refine started.trans (freed.trans ?_)
    split
    · exact .refl v
    · exact onlyPort_lawful _ id
    · exact onlyPort_lawful _ fun h => h.sublist List.filter_sublist

theorem abandonTurn_lawful (c : Heard) (s : State) : Lawful s (abandonTurn c s) :=
  .ite ((setRx_lawful .p _ s).trans (breakTurn_lawful _)) (.refl s)

theorem timeoutEnd_lawful (s : State) : Lawful s (timeoutEnd s) := .ite (onlyPort_lawful _ id) (.refl s)

theorem noteHeard_lawful (l : Line) (s : State) : Lawful s (noteHeard l s) := by
  cases l with
  | p => exact breakTurn_lawful s
  | s => exact .refl s

theorem receive_lawful {l : Line} {f : State → State} {s : State} (h : Lawful s (f s)) : Lawful s (receive l f s) :=
  .ite (setRx_lawful l .hunt s) h

theorem huntDiscarded_lawful (l : Line) (r : Rx) (s : State) : Lawful s (discarded l (setRx l r s)) :=
  (setRx_lawful l r s).trans (discarded_within l _).lawful

theorem beginFrame_lawful (l : Line) (b : Byte) (s : State) : Lawful s (beginFrame l b s) := by
  refine receive_lawful (.ite ?_ (.refl s))
  cases l with
  | p => exact (setRx_lawful .p _ s).trans (breakTurn_lawful _)
  | s => exact (setRx_lawful .s _ s).trans (markCandidate_within _).lawful

theorem hearBroken_lawful (l : Line) (s : State) : Lawful s (hearBroken l s) := by
  refine receive_lawful ?_
  split
  · exact (huntDiscarded_lawful l _ s).trans (noteHeard_lawful l _)
  · exact (setRx_lawful l _ s).trans (noteHeard_lawful l _)

theorem hearInHunt_lawful (l : Line) (s : State) : Lawful s (hearInHunt l s) :=
  receive_lawful (.ite (noteHeard_lawful l s) (.refl s))

theorem quietExpiry_lawful (s : State) : Lawful s (quietExpiry s) := by
  refine .ite ⟨id, id, id, id, rfl⟩ (.refl s)

theorem wrapStamp_lawful (s : State) : Lawful s (wrapStamp s) :=
  (onlyLog_lawful _ fun h => h.stamped 0).trans (appendLog_within [] _ _ _ _).lawful

theorem relockExpiry_within (s : State) : Within [.doors, .ann, .relock] s (relockExpiry s) :=
  .ite (((relockAll_within s).mono (by simp)).trans ((setRelockDone_within _).mono (by simp))) (.refl _ s)

/-! ### Every command -/

/-- The three commands that are no event of a bridge in service: they take the supply, or the whole state, with them. -/
def bootCommands : List Instr := [.powerOn, .supplyFailure, .restartWaitEnd]

/-- A command that is not of `bootCommands` is the effect of something lawful. -/
def LawfulCommand (i : Instr) : Prop := ∃ f, (∀ s, exec i s = effect f s) ∧ ∀ u, Lawful u (f u)

/-- A command heard on the P-line is lawful when what its frame does is. -/
theorem fromP_lawfulCommand {i : Instr} (f : State → State) (runs : ∀ s, exec i s = effect (fromP f) s)
    (hf : ∀ s, Lawful s (f s)) : LawfulCommand i :=
  ⟨fromP f, runs, fun u => (setRx_lawful .p .hunt u).trans (hf _)⟩

theorem alarmReport_lawful (k : AlarmKind) (h : Hdr) (d : Device) (seq : Byte) (tail : List Byte)
    {f : Fin 256 → State → State} (hf : ∀ z s, Lawful s (f z s)) (s : State) : Lawful s (alarmReport k h d seq tail f s) :=
  (intake_lawful k d seq hf s).trans (filterFrame_lawful _ _)

theorem brigade_lawful (h : Hdr) (payload : List Byte) {act : State → State} (ha : ∀ s, Lawful s (act s)) (s : State) :
    Lawful s (brigade h payload act s) :=
  .ite (.ite (ha s) (appendLog_within [] _ _ _ s).lawful) (filterFrame_lawful _ s)

theorem exec_lawful (i : Instr) (boots : i ∉ bootCommands) : LawfulCommand i := by
  cases i with
  | powerOn => simp [bootCommands] at boots
  | supplyFailure => simp [bootCommands] at boots
  | restartWaitEnd => simp [bootCommands] at boots
  | detect h panel point seq tail =>
    exact fromP_lawfulCommand _ (fun _ => rfl) (alarmReport_lawful _ _ _ _ _ fun z s => takeDetect_lawful _ z seq s)
  | fault h panel point seq tail =>
    exact fromP_lawfulCommand _ (fun _ => rfl) (alarmReport_lawful _ _ _ _ _ fun z s => takeFault_lawful _ z seq s)
  | faultClear h panel point seq tail =>
    exact fromP_lawfulCommand _ (fun _ => rfl) (alarmReport_lawful _ _ _ _ _ fun z s => takeFault_lawful _ z seq s)
  | normal h panel point seq tail =>
    exact fromP_lawfulCommand _ (fun _ => rfl) (alarmReport_lawful _ _ _ _ _ fun _ s => .refl s)
  | regimeReset h payload =>
    exact fromP_lawfulCommand _ (fun _ => rfl) fun s => .ite (takeReset_lawful _ s) (filterFrame_lawful _ s)
  | phaseHold h tail =>
    exact fromP_lawfulCommand _ (fun _ => rfl)
      (brigade_lawful _ _ (planCommand_lawful _ _ fun s => (hold_phaseOnly s).lawful))
  | phaseStep h tail =>
    exact fromP_lawfulCommand _ (fun _ => rfl) (brigade_lawful _ _ (planCommand_lawful _ _ stepPlan_lawful))
  | phaseRun h tail =>
    exact fromP_lawfulCommand _ (fun _ => rfl)
      (brigade_lawful _ _ (planCommand_lawful _ _ fun s => (run_phaseOnly s).lawful))
  | generalEvacuate h tail =>
    exact fromP_lawfulCommand _ (fun _ => rfl) (brigade_lawful _ _ (evacuateAll_lawful _))
  | liveTalkStart h floors tail =>
    exact fromP_lawfulCommand _ (fun _ => rfl)
      (brigade_lawful _ _ (ownerCommand_lawful _ _ fun s => (liveTalkStart_within floors s).lawful))
  | liveTalkEnd h tail =>
    exact fromP_lawfulCommand _ (fun _ => rfl)
      (brigade_lawful _ _ (ownerCommand_lawful _ _ fun s => (liveTalkEnd_within s).lawful))
  | liftRelease h bank tail =>
    exact fromP_lawfulCommand _ (fun _ => rfl)
      (brigade_lawful _ _ (ownerCommand_lawful _ _ fun s => (liftRelease_within bank s).lawful))
  | brigadeCommandUnknown h payload =>
    exact fromP_lawfulCommand _ (fun _ => rfl)
      (brigade_lawful _ _ fun s => (answerCommand_within [] _ _ _ s s).lawful)
  | poll h payload =>
    exact fromP_lawfulCommand _ (fun _ => rfl) fun s =>
      .ite (.refl s) (.ite (grantTurn_lawful _ s) (filterFrame_lawful _ s))
  | turnFrameSent => exact ⟨_, fun _ => rfl, frameSent_lawful⟩
  | turnAbandoned c => exact ⟨_, fun _ => rfl, abandonTurn_lawful c⟩
  | turnTimeout => exact ⟨_, fun _ => rfl, timeoutEnd_lawful⟩
  | loadTable h key params => exact fromP_lawfulCommand _ (fun _ => rfl) (manage_lawful _ _ _ _ _ (loadTable_lawful _ _))
  | readTable h key params =>
    exact fromP_lawfulCommand _ (fun _ => rfl) (manage_lawful _ _ _ _ _ fun s => (readTable_within _ _ s).lawful)
  | readRecord h key params =>
    exact fromP_lawfulCommand _ (fun _ => rfl) (manage_lawful _ _ _ _ _ fun s => (readRecord_within _ _ s).lawful)
  | readLog h key params => exact fromP_lawfulCommand _ (fun _ => rfl) (manage_lawful _ _ _ _ _ (readLog_lawful _ _))
  | readCapture h key params =>
    exact fromP_lawfulCommand _ (fun _ => rfl) (manage_lawful _ _ _ _ _ fun s => (readCapture_within _ _ s).lawful)
  | isolate h key params => exact fromP_lawfulCommand _ (fun _ => rfl) (manage_lawful _ _ _ _ _ (isolateScope_lawful _ _))
  | deIsolate h key params =>
    exact fromP_lawfulCommand _ (fun _ => rfl) (manage_lawful _ _ _ _ _ (deIsolateScope_lawful _ _))
  | rackStandbyNow h key params =>
    exact fromP_lawfulCommand _ (fun _ => rfl) (manage_lawful _ _ _ _ _ fun s => (rackStandby_within _ _ s).lawful)
  | rackCountdown h key params =>
    exact fromP_lawfulCommand _ (fun _ => rfl) (manage_lawful _ _ _ _ _ fun s => (rackCode_within _ _ s).lawful)
  | testDoor h key params =>
    exact fromP_lawfulCommand _ (fun _ => rfl) (manage_lawful _ _ _ _ _ fun s => (doorTest_within _ _ s).lawful)
  | acknowledgeLines h key params =>
    exact fromP_lawfulCommand _ (fun _ => rfl) (manage_lawful _ _ _ _ _ fun s => (acknowledgeAll_within _ s).lawful)
  | setKey h key params =>
    exact fromP_lawfulCommand _ (fun _ => rfl) (manage_lawful _ _ _ _ _ fun s => (changeKey_within _ _ s).lawful)
  | restart h key params =>
    exact fromP_lawfulCommand _ (fun _ => rfl) (manage_lawful _ _ _ _ _ fun s => (askRestart_within _ s).lawful)
  | manageUnknownSubcode h key sub params =>
    exact fromP_lawfulCommand _ (fun _ => rfl) (manage_lawful _ _ _ _ _ (reply_lawful _ _ _ _ _))
  | manageSetAside h payload =>
    exact fromP_lawfulCommand _ (fun _ => rfl) fun s => .ite (.refl s) (filterFrame_lawful _ s)
  | serviceRequest h payload => exact fromP_lawfulCommand _ (fun _ => rfl) (filterFrame_lawful _)
  | untakenFrame h kind payload => exact fromP_lawfulCommand _ (fun _ => rfl) (filterFrame_lawful _)
  | alarmReportDiscarded h payload => exact fromP_lawfulCommand _ (fun _ => rfl) (filterFrame_lawful _)
  | badFrame l bytes => exact ⟨_, fun _ => rfl, fun s => (takeBadFrame_within l s).lawful⟩
  | silence2ms l => exact ⟨_, fun _ => rfl, fun s => (fallSilent_within l s).lawful⟩
  | brokenCharacter l => exact ⟨_, fun _ => rfl, hearBroken_lawful l⟩
  | frameLengthAbove64 l => exact ⟨_, fun _ => rfl, fun s => (hearLong_within l s).lawful⟩
  | characterInHunt l => exact ⟨_, fun _ => rfl, hearInHunt_lawful l⟩
  | frameBegun l b => exact ⟨_, fun _ => rfl, beginFrame_lawful l b⟩
  | nextTransaction => exact ⟨_, fun _ => rfl, fun s => (nextTxn_within s).lawful⟩
  | answerWindowOpen => exact ⟨_, fun _ => rfl, fun s => (openWindow_within s).lawful⟩
  | stationReply h payload => exact ⟨_, fun _ => rfl, fun s => (takeReply_within h _ payload s).lawful⟩
  | serviceAnswer h payload => exact ⟨_, fun _ => rfl, fun s => (takeReply_within h _ payload s).lawful⟩
  | answerWindowClose => exact ⟨_, fun _ => rfl, fun s => (closeWindow_within s).lawful⟩
  | rejectedCandidate cause => exact ⟨_, fun _ => rfl, fun s => (rejectCandidate_within cause s).lawful⟩
  | quietLineTimerExpiry => exact ⟨_, fun _ => rfl, quietExpiry_lawful⟩
  | forwardLifetimeExpiry entry => exact ⟨_, fun _ => rfl, fun s => (forwardExpiry_within _ s).lawful⟩
  | zoneWindowExpiry z => exact ⟨_, fun _ => rfl, windowExpiry_lawful z⟩
  | drain stair => exact ⟨_, fun _ => rfl, drainStair_lawful stair⟩
  | phaseTimerExpiry => exact ⟨_, fun _ => rfl, phaseExpiry_lawful⟩
  | recallTimerExpiry car => exact ⟨_, fun _ => rfl, fun s => (recallExpiry_within car s).lawful⟩
  | mismatchTimerExpiry point => exact ⟨_, fun _ => rfl, fun s => (mismatchExpiry_within point s).lawful⟩
  | relockTimerExpiry => exact ⟨_, fun _ => rfl, fun s => (relockExpiry_within s).lawful⟩
  | testTimerExpiry point => exact ⟨_, fun _ => rfl, fun s => (testExpiry_within point s).lawful⟩
  | countdownExpiry rack => exact ⟨_, fun _ => rfl, fun s => (countdownEnd_within rack s).lawful⟩
  | warmUpTimerExpiry ch => exact ⟨_, fun _ => rfl, fun s => (warmUpEnd_within ch s).lawful⟩
  | playTimerExpiry ch => exact ⟨_, fun _ => rfl, fun s => (playEnd_within ch s).lawful⟩
  | restTimerExpiry slot => exact ⟨_, fun _ => rfl, fun s => (restEnd_within slot s).lawful⟩
  | liveTalkLimit => exact ⟨_, fun _ => rfl, fun s => (endLive_within s).lawful⟩
  | pageLimit slot => exact ⟨_, fun _ => rfl, fun s => (pageEnd_within slot s).lawful⟩
  | holdDeadline slot => exact ⟨_, fun _ => rfl, fun s => (holdEnd_within slot s).lawful⟩
  | testPeriodExpiry => exact ⟨_, fun _ => rfl, fun s => (testPeriodEnd_within s).lawful⟩
  | timestampWrap => exact ⟨_, fun _ => rfl, wrapStamp_lawful⟩
  | storeWriteEnd => exact ⟨_, fun _ => rfl, fun s => (endWrite_within s).lawful⟩

/-! ### The end of an event, and the passing of time (R164, R165) -/

theorem finish_lawful (before s : State) : Lawful s (finish before s) := (finish_within before s).lawful

theorem holds_settleLines (before s : State) (c : Condition) : holds (settleLines before s) c = holds s c := by
  cases c <;> rfl

theorem anyHolds_congr {s t : State} (h : ∀ c, holds t c = holds s c) (l : CommonLine) : anyHolds t l = anyHolds s l := by
  simp [anyHolds, h]

/-- R164, R165: the lines settled are in line with their latches and conditions. -/
theorem settleLines_linesInv (before : State) {s : State} (powered : s.powered = true) :
    LinesInv (settleLines before s) := by
  intro l
  rw [anyHolds_congr (holds_settleLines before s), settleLines_powered, powered, settleLines_lines, Tbl.get_map]
  rfl

theorem finish_linesInv (before : State) {s : State} (powered : s.powered = true) : LinesInv (finish before s) :=
  settleLines_linesInv before (((reportChanges_within before s).supply (by simp)).1.trans powered)

theorem finish_notesInv (before s : State) : NotesInv (finish before s) := by
  rw [finish_eq]
  rfl

/-- The lines stay in line when no condition changes. -/
theorem LinesInv.of_same {s t : State} (h : LinesInv s) (powered : t.powered = s.powered) (lines : t.lines = s.lines)
    (same : ∀ c, holds t c = holds s c) : LinesInv t := by
  intro l
  rw [lines, powered, anyHolds_congr same]
  exact h l

theorem tickTimers_lawful (s : State) : Lawful s (tickTimers s) := by
  refine ⟨id, id, fun h => h.of_stairs ?_, fun h => h.of_states (fun z => ?_) id, rfl⟩
  · show (tickPlan s).stairs = s.seq.stairs
    unfold tickPlan
    extract_lets q
    split
    · split <;> rfl
    · rfl
  · simp [tickTimers]

theorem rows_eq_map_get {α : Type} {n : Nat} (t : Tbl α n) : t.rows = (List.finRange n).map t.get :=
  List.ext_getElem (by simp [t.size]) fun i h _ => by simp [Tbl.get_eq]

theorem rows_any {α : Type} {n : Nat} (t : Tbl α n) (p : α → Bool) :
    t.rows.any p = (List.finRange n).any fun i => p (t.get i) := by
  rw [rows_eq_map_get, List.any_map]
  rfl

/-- R164: the passing of time changes no condition. -/
theorem holds_tickTimers (s : State) (c : Condition) : holds (tickTimers s) c = holds s c := by
  cases c with
  | regimeActive => rfl
  | anyPreAlarm => simp [holds, rows_any, tickTimers]
  | zoneFault => simp [holds, rows_any, tickTimers]
  | stationLost => rfl
  | doorFault => simp [holds, rows_any, tickTimers, Option.any_map]
  | carOverdueOrStranded => simp [holds, rows_any, tickTimers, Option.any_map]
  | rackFault =>
    simp only [holds, rows_any, tickTimers, tickRacks, get_mapIdx]
    congr 1
    funext r
    split <;> rfl
  | pSilent => rfl
  | logWatermark => rfl

theorem startFrame_log (s : State) : (startFrame s).log = s.log := by
  unfold startFrame takeFrame
  repeat' split
  all_goals rfl

theorem startFrame_regime (s : State) : (startFrame s).regime = s.regime := by
  unfold startFrame takeFrame
  repeat' split
  all_goals rfl

theorem startFrame_silent (s : State) : (startFrame s).port.silent = s.port.silent := by
  unfold startFrame takeFrame
  repeat' split
  all_goals rfl

theorem startFrame_notes (s : State) : (startFrame s).notes = s.notes := by
  unfold startFrame takeFrame
  repeat' split
  all_goals rfl

/-- R164: the start of a frame of a turn changes no condition. -/
theorem holds_startFrame (s : State) (c : Condition) : holds (startFrame s) c = holds s c := by
  have k := fun b (h : b ∉ [Block.turn, .receivers]) => startFrame_same h s
  have zones : (startFrame s).zones = s.zones := k .zones (by simp)
  have stations : (startFrame s).sline.stations = s.sline.stations := k .stations (by simp)
  have doors : (startFrame s).doors = s.doors := k .doors (by simp)
  have lifts : (startFrame s).lifts = s.lifts := k .lifts (by simp)
  have ann : (startFrame s).ann = s.ann := k .ann (by simp)
  have params : (startFrame s).params = s.params := k .params (by simp)
  cases c <;>
    simp only [holds, zones, stations, doors, lifts, ann, params, startFrame_log, startFrame_regime, startFrame_silent]

/-- R160: the counter moves on by one unit, or wraps as an event of its own. -/
theorem tickCounter_lawful (s : State) : Lawful s (tickCounter s) :=
  .ite ((beginEvent_within [] s).lawful.trans ((wrapStamp_lawful _).trans (finish_lawful _ _)))
    (onlyLog_lawful _ fun h => h.stamped _)

theorem tick_lawful (s : State) : Lawful s (tick s) :=
  (tickTimers_lawful s).trans ((startFrame_lawful _).trans (tickCounter_lawful _))

theorem tickCounter_lines {s : State} (powered : s.powered = true) (lines : LinesInv s) (notes : NotesInv s) :
    LinesInv (tickCounter s) ∧ NotesInv (tickCounter s) := by
  unfold tickCounter
  split
  · exact ⟨finish_linesInv _ (((wrapStamp_lawful _).supply).trans powered), finish_notesInv _ _⟩
  · exact ⟨lines.of_same rfl rfl fun c => by cases c <;> rfl, notes⟩

theorem tick_lines {s : State} (powered : s.powered = true) (lines : LinesInv s) (notes : NotesInv s) :
    LinesInv (tick s) ∧ NotesInv (tick s) := by
  have supply : (startFrame (tickTimers s)).powered = s.powered := ((startFrame_lawful _).supply)
  refine tickCounter_lines (supply.trans powered) (lines.of_same supply ?_ fun c => ?_) ?_
  · exact startFrame_same (b := .lines) (by simp) _
  · rw [holds_startFrame, holds_tickTimers]
  · show (startFrame _).notes = _
    rw [startFrame_notes]
    exact notes

/-! ### What a step keeps -/

/-- A step keeps the laws of every state: the first four each by itself, the lines with what is noted. -/
structure KeepsLaws (s t : State) : Prop where
  log : LogInv s.log → LogInv t.log
  queue : QueueInv s.port.queue → QueueInv t.port.queue
  loads : LoadInv s → LoadInv t
  alarms : AlarmInv s → AlarmInv t
  lines : LinesInv s → NotesInv s → LinesInv t ∧ NotesInv t

theorem KeepsLaws.refl (s : State) : KeepsLaws s s := ⟨id, id, id, id, fun h k => ⟨h, k⟩⟩

theorem Lawful.keepsLaws {s t : State} (h : Lawful s t) (lines : LinesInv s → NotesInv s → LinesInv t ∧ NotesInv t) :
    KeepsLaws s t := ⟨h.log, h.queue, h.loads, h.alarms, lines⟩

/-! ### The supply and power-on (R164, R171, R176) -/

theorem restoreScope_lawful (c : Scope) (s : State) : Lawful s (restoreScope c s) := by
  unfold restoreScope
  refine .ite (.refl s) ?_
  extract_lets e
  exact (Within.trans (onlyZones_within _) (markIsolated_within e _)).lawful_zones fun z a => by
    rwa [markIsolated_state] at a

theorem setCode_within (r : Fin 4) (code : Nat) (s : State) : Within annBlocks s (setCode r code s) :=
  setRack_within r _ s

theorem restoreScope_within (c : Scope) (s : State) : Within [.zones] s (restoreScope c s) := by
  unfold restoreScope
  exact .ite (.refl _ s) (Within.trans (onlyZones_within _) (markIsolated_within _ _))

theorem setKey_within (k : BitVec 32) (s : State) : Within [.mgmt] s { s with mgmt := { s.mgmt with key := k } } :=
  .of_only (fun b hb => by cases b <;> simp_all [same]) rfl rfl rfl

/-- R171: an item of the store changes what an entry of a load may change. -/
theorem applyItem_within (s : State) (x : StoreItem) : Within loadBlocks s (applyItem s x) := by
  cases x with
  | entry t i e =>
    cases applied : applyEntry t i e s with
    | none => simpa [applyItem, applied] using .refl _ s
    | some u => simpa [applyItem, applied] using applyEntry_within applied
  | code r code => exact (setCode_within r code s).mono (by simp [annBlocks, completionBlocks])
  | isolation i scope =>
    cases scope with
    | none => exact .refl _ s
    | some c => exact (restoreScope_within c s).mono (by simp)
  | key k => exact (setKey_within k s).mono (by simp)

theorem applyItem_lawful (s : State) (x : StoreItem) : Lawful s (applyItem s x) := by
  cases x with
  | entry t i e =>
    cases applied : applyEntry t i e s with
    | none => simpa [applyItem, applied] using .refl s
    | some u => simpa [applyItem, applied] using applyEntry_lawful applied
  | code r code => exact (setCode_within r code s).lawful
  | isolation i scope =>
    cases scope with
    | none => exact .refl s
    | some c => exact restoreScope_lawful c s
  | key k => exact (setKey_within k s).lawful

theorem blank_loadInv {s : State} (h : s.seq.stairs = Tbl.fill 4 Stair.blank) : LoadInv s := by
  intro st
  rw [h, Tbl.get_fill]
  exact ⟨rfl, .nil⟩

/-- R176: what the store makes of the blank bridge holds the laws of the plan and of the zones, in QUIESCENT. -/
theorem fromStore_laws (log : EventLog) (s : State) :
    LoadInv (fromStore log s) ∧ ∀ z, ((fromStore log s).zones.table.get z).state ≠ .alarm := by
  have applied := Lawful.foldl applyItem_lawful s.mgmt.store { State.blank with
    log, failures := s.failures, pending := s.pending, mgmt := { State.blank.mgmt with store := s.mgmt.store } }
  have within := Within.foldl applyItem_within s.mgmt.store { State.blank with
    log, failures := s.failures, pending := s.pending, mgmt := { State.blank.mgmt with store := s.mgmt.store } }
  refine ⟨applied.loads (blank_loadInv rfl), applied.alarms (fun _ z => ?_) ?_⟩
  · show ((Tbl.fill 256 Zone.blank).get z).state ≠ .alarm
    rw [Tbl.get_fill]
    exact ZoneState.noConfusion
  · show (fromStore log s).regime.state ≠ .active
    rw [show (fromStore log s).regime.state = .quiescent from within.state Regime.noConfusion]
    exact Regime.noConfusion

theorem boot_laws (log : EventLog) (s : State) : LoadInv (boot log s) ∧ AlarmInv (boot log s) :=
  ⟨(fromStore_laws log s).1, fun _ => (fromStore_laws log s).2⟩

theorem comeUp_log (log : EventLog) (d : RestartDetail) (s : State) :
    (comeUp log d s).log = appendRecord log .restart .none (.restart d) := by
  unfold comeUp
  rw [settleLines_log, appendLog_log]
  rfl

/-- R176: a bridge that comes up with a log in order keeps the laws of every state. -/
theorem comeUp_keepsLaws {log : EventLog} {s : State} (h : LogInv s.log → LogInv log) (d : RestartDetail) (u : State) :
    KeepsLaws s (comeUp log d u) := by
  have restarted : Lawful (boot log u) (comeUp log d u) :=
    (appendLog_within [] _ _ _ (boot log u)).lawful.trans (settleLines_within _ _).lawful
  obtain ⟨loads, alarms⟩ := boot_laws log u
  have owners : (appendLog .restart .none (.restart d) (boot log u)).notes.owners = [] := appendLog_notes_owners ..
  refine ⟨fun k => ?_, fun _ => restarted.queue ⟨Nat.zero_le _, .nil⟩, fun _ => restarted.loads loads,
    fun _ => restarted.alarms alarms, fun _ _ => ⟨settleLines_linesInv _ (appendLog_powered ..), ?_⟩⟩
  · rw [comeUp_log]
    exact appendRecord_inv (h k) _ _ _
  · exact congrArg (Notes.mk 0) owners

theorem powerDown_keepsLaws (s : State) : KeepsLaws s (powerDown s) :=
  ⟨id, id, id, id, fun _ notes => ⟨fun l => by simp [powerDown], notes⟩⟩

/-! ### A step (O5 to O9) -/

theorem effect_keepsLaws {f : State → State} (hf : ∀ u, Lawful u (f u)) {s t : State} (h : effect f s = .next t) :
    KeepsLaws s t := by
  cases powered : s.powered with
  | false =>
    rw [effect_off f powered] at h
    cases h
    exact .refl s
  | true =>
    rw [effect_on f powered] at h
    cases h
    have event : Lawful s (f (beginEvent s)) := (beginEvent_within [] s).lawful.trans (hf _)
    exact (event.trans (finish_lawful _ _)).keepsLaws fun _ _ =>
      ⟨finish_linesInv _ (event.supply.trans powered), finish_notesInv _ _⟩

theorem exec_keepsLaws {i : Instr} {s t : State} (h : exec i s = .next t) : KeepsLaws s t := by
  by_cases boots : i ∈ bootCommands
  · simp only [bootCommands, List.mem_cons, List.not_mem_nil, or_false] at boots
    rcases boots with rfl | rfl | rfl
    · cases h
      exact comeUp_keepsLaws (fun _ => emptyLog_inv) _ _
    · cases h
      split
      · exact powerDown_keepsLaws s
      · exact .refl s
    · cases h
      split
      · unfold restartNow
        split
        · exact comeUp_keepsLaws LogInv.read _ _
        · exact .refl s
      · exact .refl s
  · obtain ⟨f, runs, lawful⟩ := exec_lawful i boots
    exact effect_keepsLaws lawful (runs s ▸ h)

/-- Every step keeps the laws: a command that waits, an event that has come due, and the passing of time. -/
theorem step_keepsLaws {s t : State} (h : step s = .next t) : KeepsLaws s t := by
  unfold step at h
  split at h
  · next c rest _ =>
    have k : KeepsLaws { s with pending := rest } t := exec_keepsLaws h
    exact ⟨k.log, k.queue, k.loads, k.alarms, fun lines notes =>
      k.lines (lines.of_same rfl rfl fun c => by cases c <;> rfl) notes⟩
  · unfold idle at h
    split at h
    · next powered =>
      split at h
      · exact exec_keepsLaws h
      · cases h
        exact (tick_lawful s).keepsLaws (tick_lines powered)
    · cases h
      exact .refl s

/-- Settles O5. -/
theorem stepKeepsLogNumbering : Obligations.StepKeepsLogNumbering := fun _ _ inv step => (step_keepsLaws step).log inv

/-- Settles O6. -/
theorem stepKeepsQueueOrder : Obligations.StepKeepsQueueOrder := fun _ _ inv step => (step_keepsLaws step).queue inv

/-- Settles O7. -/
theorem stepKeepsStairLoads : Obligations.StepKeepsStairLoads := fun _ _ inv step => (step_keepsLaws step).loads inv

/-- Settles O8. -/
theorem stepKeepsAlarmsInActive : Obligations.StepKeepsAlarmsInActive :=
  fun _ _ inv step => (step_keepsLaws step).alarms inv

/-- Settles O9. -/
theorem stepKeepsLinesInLine : Obligations.StepKeepsLinesInLine :=
  fun _ _ lines notes step => (step_keepsLaws step).lines lines notes

end Sys2Proof.Safety

/-! PROOFS. The queue of commands, reset, the frames (sections 6.3 and 10.1), READ LOG (section 9.2), the common lines
(section 9.3) and loads (section 10.2). -/

namespace Sys2Proof.Safety

-- One proof at a time: the package as one text then compiles within the memory it is given.
set_option Elab.async false

open Sys2Proof.Machine

/-! ### The queue of commands and reset (O1 to O3) -/

/-- Settles O1. -/
theorem stepRunsFrontCommand : Obligations.StepRunsFrontCommand := by
  intro c rest s waiting
  rw [step, waiting]

/-- R160: 10 ms add one to the counter, in the wrap too. -/
theorem tick_stamp (s : State) : (tick s).log.stamp = s.log.stamp + 1 := by
  have log : (startFrame (tickTimers s)).log = s.log := startFrame_log _
  unfold tick tickCounter
  rw [log]
  split
  · next wraps =>
    rw [wraps, finish_eq]
    show (wrapStamp _).log.stamp = _
    rw [wrapStamp, appendLog_log]
    rfl
  · rfl

theorem tick_pending (s : State) : (tick s).pending = s.pending := by
  have begun : (startFrame (tickTimers s)).pending = s.pending := (startFrame_same (b := .supply) (by simp) _).2.2
  unfold tick tickCounter
  split
  · rw [finish_eq]
    show (wrapStamp _).pending = _
    rw [wrapStamp, appendLog_pending]
    exact begun
  · exact begun

/-- R160: a step that lets 10 ms pass. -/
theorem step_tick {s : State} (empty : s.pending = []) (on : s.powered = true) (none : due s = none) :
    step s = .next (tick s) := by
  have idles : step s = idle s := by rw [step, empty]
  rw [idles, idle, if_pos on, none]

/-- Settles O2. -/
theorem idleStepTakesDueEventOrTime : Obligations.IdleStepTakesDueEventOrTime := by
  intro s empty
  have idles : step s = idle s := by rw [step, empty]
  refine ⟨fun off => ?_, fun on c next => ?_, fun on none => ⟨tick s, step_tick empty on none, tick_stamp s, ?_, ?_⟩⟩
  · rw [idles, idle, if_neg (by simp [off])]
  · rw [idles, idle, if_pos on, next]
  · exact (tick_lawful s).supply.trans on
  · rw [tick_pending, empty]

theorem reset_logInv : LogInv State.reset.log :=
  ⟨by simp [State.reset], trivial, by simp [State.reset], by simp [State.reset]⟩

/-- Settles O3. -/
theorem resetServesAndKeepsLaws : Obligations.ResetServesAndKeepsLaws := by
  have lines : ∀ l, (State.reset.lines.get l).latch = false ∧ (State.reset.lines.get l).output = false := by decide
  have quiet : ∀ z, State.reset.zones.table.get z = Zone.blank := Tbl.get_fill _
  refine ⟨rfl, rfl, quiet, Tbl.get_fill _, rfl, Tbl.get_fill _, Tbl.get_fill _, Tbl.get_fill _, Tbl.get_fill _, rfl, rfl,
    Tbl.get_fill _, rfl, rfl, rfl, rfl, lines, rfl, rfl, rfl, rfl, reset_logInv, ⟨Nat.zero_le _, .nil⟩,
    blank_loadInv rfl, fun _ z => ?_, fun l => ?_, rfl⟩
  · rw [quiet]
    exact ZoneState.noConfusion
  · obtain ⟨latch, output⟩ := lines l
    have none : ∀ l, anyHolds State.reset (State.reset.lines.get l) = false := by decide +kernel
    rw [output, latch, none l]
    rfl

/-! ### Frames read back (O4) -/

open Sys2Proof.Laws in
/-- Every command that is a P-line frame is read back from it. -/
theorem frame_readBack : (i : Instr) → RoundTrip.Statement i
  | .powerOn => RoundTrip.powerOn
  | .detect h panel point seq tail => RoundTrip.detect h panel point seq tail
  | .fault h panel point seq tail => RoundTrip.fault h panel point seq tail
  | .faultClear h panel point seq tail => RoundTrip.faultClear h panel point seq tail
  | .normal h panel point seq tail => RoundTrip.normal h panel point seq tail
  | .regimeReset h payload => RoundTrip.regimeReset h payload
  | .phaseHold h tail => RoundTrip.phaseHold h tail
  | .phaseStep h tail => RoundTrip.phaseStep h tail
  | .phaseRun h tail => RoundTrip.phaseRun h tail
  | .generalEvacuate h tail => RoundTrip.generalEvacuate h tail
  | .liveTalkStart h floors tail => RoundTrip.liveTalkStart h floors tail
  | .liveTalkEnd h tail => RoundTrip.liveTalkEnd h tail
  | .liftRelease h bank tail => RoundTrip.liftRelease h bank tail
  | .brigadeCommandUnknown h payload => RoundTrip.brigadeCommandUnknown h payload
  | .poll h payload => RoundTrip.poll h payload
  | .turnFrameSent => RoundTrip.turnFrameSent
  | .turnAbandoned c => RoundTrip.turnAbandoned c
  | .turnTimeout => RoundTrip.turnTimeout
  | .loadTable h key params => RoundTrip.loadTable h key params
  | .readTable h key params => RoundTrip.readTable h key params
  | .readRecord h key params => RoundTrip.readRecord h key params
  | .readLog h key params => RoundTrip.readLog h key params
  | .readCapture h key params => RoundTrip.readCapture h key params
  | .isolate h key params => RoundTrip.isolate h key params
  | .deIsolate h key params => RoundTrip.deIsolate h key params
  | .rackStandbyNow h key params => RoundTrip.rackStandbyNow h key params
  | .rackCountdown h key params => RoundTrip.rackCountdown h key params
  | .testDoor h key params => RoundTrip.testDoor h key params
  | .acknowledgeLines h key params => RoundTrip.acknowledgeLines h key params
  | .setKey h key params => RoundTrip.setKey h key params
  | .restart h key params => RoundTrip.restart h key params
  | .manageUnknownSubcode h key sub params => RoundTrip.manageUnknownSubcode h key sub params
  | .serviceRequest h payload => RoundTrip.serviceRequest h payload
  | .untakenFrame h kind payload => RoundTrip.untakenFrame h kind payload
  | .badFrame l bytes => RoundTrip.badFrame l bytes
  | .silence2ms l => RoundTrip.silence2ms l
  | .nextTransaction => RoundTrip.nextTransaction
  | .stationReply h payload => RoundTrip.stationReply h payload
  | .serviceAnswer h payload => RoundTrip.serviceAnswer h payload
  | .answerWindowClose => RoundTrip.answerWindowClose
  | .rejectedCandidate cause => RoundTrip.rejectedCandidate cause
  | .zoneWindowExpiry z => RoundTrip.zoneWindowExpiry z
  | .drain stair => RoundTrip.drain stair
  | .phaseTimerExpiry => RoundTrip.phaseTimerExpiry
  | .recallTimerExpiry car => RoundTrip.recallTimerExpiry car
  | .mismatchTimerExpiry point => RoundTrip.mismatchTimerExpiry point
  | .relockTimerExpiry => RoundTrip.relockTimerExpiry
  | .testTimerExpiry point => RoundTrip.testTimerExpiry point
  | .countdownExpiry rack => RoundTrip.countdownExpiry rack
  | .warmUpTimerExpiry ch => RoundTrip.warmUpTimerExpiry ch
  | .playTimerExpiry ch => RoundTrip.playTimerExpiry ch
  | .restTimerExpiry slot => RoundTrip.restTimerExpiry slot
  | .liveTalkLimit => RoundTrip.liveTalkLimit
  | .pageLimit slot => RoundTrip.pageLimit slot
  | .holdDeadline slot => RoundTrip.holdDeadline slot
  | .testPeriodExpiry => RoundTrip.testPeriodExpiry
  | .forwardLifetimeExpiry entry => RoundTrip.forwardLifetimeExpiry entry
  | .quietLineTimerExpiry => RoundTrip.quietLineTimerExpiry
  | .timestampWrap => RoundTrip.timestampWrap
  | .storeWriteEnd => RoundTrip.storeWriteEnd
  | .restartWaitEnd => RoundTrip.restartWaitEnd
  | .supplyFailure => RoundTrip.supplyFailure
  | .brokenCharacter l => RoundTrip.brokenCharacter l
  | .frameLengthAbove64 l => RoundTrip.frameLengthAbove64 l
  | .characterInHunt l => RoundTrip.characterInHunt l
  | .frameBegun l b => RoundTrip.frameBegun l b
  | .answerWindowOpen => RoundTrip.answerWindowOpen
  | .alarmReportDiscarded h payload => RoundTrip.alarmReportDiscarded h payload
  | .manageSetAside h payload => RoundTrip.manageSetAside h payload

/-- R121, R122: a frame with a good header and a payload that fits is read from its bytes. -/
theorem goodFrame_frameBytes {f : Frame} (header : goodHeader f = true) (fits : f.payload.length ≤ 64) :
    goodFrame (frameBytes f) = some f := by
  have length : (BitVec.ofNat 8 f.payload.length).toNat = f.payload.length := by
    rw [BitVec.toNat_ofNat, Nat.mod_eq_of_lt (by omega)]
  have check : (be 2 (check (frameBody f)).toNat).length = 2 := Laws.RoundTrip.be_length 2 _
  simp only [frameBytes, frameBody, List.cons_append, List.nil_append, goodFrame, length, List.length_append]
  simp only [frameBody, List.cons_append, List.nil_append] at check
  rw [if_pos ⟨fits, by omega⟩, List.take_left', List.drop_left']
  · rw [if_pos ⟨by simp, header⟩]
  · rfl
  · rfl

/-- Settles O4. -/
theorem framesReadBack : Obligations.FramesReadBack := by
  intro i wf f framed
  obtain ⟨read, header, fits⟩ := frame_readBack i wf f framed
  rw [commandOfBytes, goodFrame_frameBytes header fits]
  exact read

/-! ### The common lines (O11) -/

theorem mem_conditions (c : Condition) : c ∈ conditions := by cases c <;> decide

theorem anyHolds_iff {s : State} {l : CommonLine} :
    anyHolds s l = true ↔ ∃ c, l.route.getLsbD c.ctorIdx = true ∧ holds s c = true := by
  simp [anyHolds, routed, mem_conditions]

theorem anyOnset_iff {before s : State} {l : CommonLine} :
    anyOnset before s l = true ↔ ∃ c, l.route.getLsbD c.ctorIdx = true ∧
      (noted s c = true ∨ (holds before c = false ∧ holds s c = true)) := by
  simp [anyOnset, onset, routed, mem_conditions]

/-- R163, R165: an append notes LOG WATERMARK as it takes the count to the watermark, and nothing else. -/
theorem noted_appendLog (k : EventKind) (x : Subject) (d : Detail) (s : State) (c : Condition) :
    noted (appendLog k x d s) c = true ↔ noted s c = true ∨
      (c = .logWatermark ∧ ¬ s.params.logMark ≤ s.log.sinceRead ∧ s.params.logMark ≤ min 256 (s.log.sinceRead + 1)) := by
  have woken : noted (appendLog k x d s) c =
      noted (noteOnset .logWatermark s { s with log := appendRecord s.log k x d }) c := rfl
  have kept : noted { s with log := appendRecord s.log k x d } c = noted s c := by simp only [noted]
  have count : (appendRecord s.log k x d).sinceRead = min 256 (s.log.sinceRead + 1) := by simp only [appendRecord]
  rw [woken, noted_noteOnset, kept]
  simp [holds, count, and_assoc]

/-- R165: a car that comes to be OVERDUE or STRANDED where none was is noted. -/
theorem noted_placeCar {i : Fin 8} {a b : Car} {s : State}
    (none : ∀ j c, s.lifts.cars.get j = some c → c.state ≠ .overdue ∧ c.state ≠ .stranded)
    (comes : b.state = .overdue ∨ b.state = .stranded) : noted (placeCar i a b s) .carOverdueOrStranded = true := by
  have before : holds s .carOverdueOrStranded = false := by
    simp only [holds, rows_any, List.any_eq_false, Bool.not_eq_true, Option.any_eq_false]
    intro j _ c inUse
    obtain ⟨notOverdue, notStranded⟩ := none j c inUse
    simp [notOverdue, notStranded]
  have after : holds (setCar i b s) .carOverdueOrStranded = true := by
    simp only [holds, rows_any, List.any_eq_true]
    refine ⟨i, List.mem_finRange i, ?_⟩
    rw [setCar_lifts_cars, Tbl.get_set_self]
    simpa using comes
  have onset : noted (noteOnset .carOverdueOrStranded s (setCar i b s)) .carOverdueOrStranded = true := by
    rw [noted_noteOnset, before, after]
    simp
  unfold placeCar
  extract_lets t
  split
  · exact onset
  · exact onset

/-- Settles O11, with `settleLine` read clause by clause. -/
theorem lineFollowsConditions : Obligations.LineFollowsConditions := by
  refine ⟨fun before s i => ?line, noted_appendLog, fun i a b s _ none comes => noted_placeCar none comes⟩
  case line =>
    extract_lets x y
    have settled : y = settleLine before s x := by simp [y, x]
    have latch : y.latch = (x.latched && (x.latch || anyOnset before s x)) := by rw [settled]; rfl
    have output : y.output = (y.latch || anyHolds s x) := by rw [settled]; rfl
    refine ⟨by rw [settled]; rfl, by rw [settled]; rfl, fun level clear => ⟨?_, ?_⟩, fun latched => ⟨?_, ?_⟩⟩
    · simp [latch, level]
    · rw [output, latch, level, Bool.false_and, Bool.false_or, anyHolds_iff]
    · rw [latch, latched, Bool.true_and, Bool.or_eq_true, anyOnset_iff]
    · rw [output, Bool.or_eq_true, anyHolds_iff]

/-! ### The data of a reply (O12) -/

theorem chunks_flatten {n : Nat} {bs : List Byte} (enough : bs.length < n) : (chunks n bs).flatten = bs := by
  induction n generalizing bs with
  | zero => omega
  | succ n ih =>
    unfold chunks
    split
    · simp
    · next long =>
      have rest : (bs.drop dataRoom).length < n := by
        simp only [List.length_drop, dataRoom] at *
        omega
      rw [List.flatten_cons, ih rest, List.take_append_drop]

theorem chunks_length (n : Nat) (bs : List Byte) : ∀ f ∈ chunks n bs, f.length ≤ dataRoom := by
  induction n generalizing bs with
  | zero => simp [chunks]
  | succ n ih =>
    unfold chunks
    split
    · next short => simpa using short
    · intro f hf
      rcases List.mem_cons.mp hf with rfl | hf
      · simp
      · exact ih _ f hf

/-- Settles O12. -/
theorem replyDataCarriedWhole : Obligations.ReplyDataCarriedWhole :=
  fun bs => ⟨chunks_flatten (Nat.lt_succ_self _), chunks_length _ bs⟩

/-! ### READ LOG (O13) -/

/-- R161: a record's number tells its place behind the oldest one held. -/
theorem seq_of_place {l : List LogRecord} {a r : LogRecord} {k : Nat} (h : Consecutive l) (oldest : l[0]? = some a)
    (at_k : l[k]? = some r) : r.seq = a.seq + BitVec.ofNat 16 k := by
  induction k generalizing r with
  | zero => simp_all
  | succ k ih =>
    obtain ⟨lt, rfl⟩ := List.getElem?_eq_some_iff.mp at_k
    have before := ih (r := l[k]) (List.getElem?_eq_getElem (by omega))
    have next := List.isChain_iff_getElem.mp ((consecutive_iff_isChain l).mp h) k (by omega)
    rw [next, before, BitVec.ofNat_add, ← BitVec.add_assoc]
    rfl

/-- R162: a read starts at the place of its number, counted from the oldest record, when that place is held. -/
theorem logRecords_eq {l : EventLog} {a : LogRecord} (oldest : l.records[0]? = some a) (start : BitVec 16) (count : Nat) :
    logRecords l start count =
      if (start - a.seq).toNat < l.records.length then (l.records.drop (start - a.seq).toNat).take count
      else if start = l.nextSeq then [] else l.records.take count := by
  unfold logRecords
  split
  · next none => simp [none] at oldest
  · next b rest some =>
    obtain rfl : b = a := by simpa [some] using oldest
    rfl

theorem place_of_seq (a : BitVec 16) {k : Nat} (held : k < 2 ^ 16) : (a + BitVec.ofNat 16 k - a).toNat = k := by
  rw [BitVec.add_comm, BitVec.add_sub_cancel, BitVec.toNat_ofNat, Nat.mod_eq_of_lt held]

section ReadLog

variable {l : EventLog} (h : LogInv l)
include h

/-- R162: a read from the number of a record held begins with that record. -/
theorem logRecords_head {r : LogRecord} (held : r ∈ l.records) (n : Nat) :
    (logRecords l r.seq (n + 1)).head? = some r := by
  obtain ⟨k, at_k⟩ := List.mem_iff_getElem?.mp held
  obtain ⟨lt, -⟩ := List.getElem?_eq_some_iff.mp at_k
  have size := h.size
  have oldest := List.getElem?_eq_getElem (l := l.records) (i := 0) (by omega)
  have place : (r.seq - l.records[0].seq).toNat = k := by
    rw [seq_of_place h.numbered oldest at_k, place_of_seq _ (by omega)]
  rw [logRecords_eq oldest, place, if_pos lt, List.head?_take, if_neg (by omega), List.head?_drop, at_k]

/-- R162: a read from the next number to be given returns nothing. -/
theorem logRecords_next (n : Nat) : logRecords l l.nextSeq n = [] := by
  cases newest : l.records.getLast? with
  | none => simp [logRecords, List.getLast?_eq_none_iff.mp newest]
  | some r =>
    have size := h.size
    rw [List.getLast?_eq_getElem?] at newest
    obtain ⟨lt, -⟩ := List.getElem?_eq_some_iff.mp newest
    have oldest := List.getElem?_eq_getElem (l := l.records) (i := 0) (by omega)
    have place : (l.nextSeq - l.records[0].seq).toNat = l.records.length := by
      rw [h.next r (by rw [List.getLast?_eq_getElem?, newest]), seq_of_place h.numbered oldest newest, BitVec.add_assoc,
        show (1 : BitVec 16) = BitVec.ofNat 16 1 from rfl, ← BitVec.ofNat_add, place_of_seq _ (by omega)]
      omega
    rw [logRecords_eq oldest, place, if_neg (by omega), if_pos rfl]

/-- R162: a read gives at most its count of records, and those one after another. -/
theorem logRecords_run (start : BitVec 16) (n : Nat) :
    (logRecords l start n).length ≤ n ∧ Consecutive (logRecords l start n) := by
  have numbered := (consecutive_iff_isChain _).mp h.numbered
  unfold logRecords
  split
  · exact ⟨Nat.zero_le n, trivial⟩
  · simp only [consecutive_iff_isChain]
    split
    · exact ⟨List.length_take_le _ _, (numbered.drop _).take _⟩
    · split
      · exact ⟨Nat.zero_le n, .nil⟩
      · exact ⟨List.length_take_le _ _, numbered.take _⟩

end ReadLog

/-- Settles O13. -/
theorem logReadFromNumberHeld : Obligations.LogReadFromNumberHeld := by
  intro l start n inv
  refine ⟨fun r held number => ?_, logRecords_next inv _, logRecords_run inv start n⟩
  rw [← number]
  exact logRecords_head inv held n

/-! ### Loads (O14) -/

/-- R170: the entries of a run that are applied, each by `applyEntry` at its index, none of them refused. -/
theorem applyRun_chain (tb : TableId) (i : Nat) (es : List Entry) (s : State) :
    let r := applyRun tb i es s
    ((es.take r.1.length).zipIdx i).foldlM (fun u p => (applyEntry tb p.2 p.1 u).map (reportChanges u)) s =
      some r.2.2 := by
  induction es generalizing i s with
  | nil => simp [applyRun]
  | cons e es ih =>
    cases applied : applyEntry tb i e s with
    | none => simp [applyRun, applied]
    | some u =>
      have rest := ih (i + 1) (reportChanges s u)
      simp only [applyRun, applied, List.length_cons, List.take_succ_cons, List.zipIdx_cons, List.foldlM_cons,
        Option.map_some] at rest ⊢
      exact rest

/-- R170, R171: the items for the store are the entries applied, each at its index, as the frame carried them. -/
theorem applyRun_items (tb : TableId) (i : Nat) (es : List Entry) (s : State) :
    let r := applyRun tb i es s
    r.1 = (es.take r.1.length).mapIdx fun j e => .entry tb (i + j) e := by
  induction es generalizing i s with
  | nil => simp [applyRun]
  | cons e es ih =>
    cases applied : applyEntry tb i e s with
    | none => simp [applyRun, applied]
    | some u =>
      have rest := ih (i + 1) (reportChanges s u)
      simp only [applyRun, applied, List.length_cons, List.take_succ_cons, List.mapIdx_cons, Nat.add_zero,
        List.cons.injEq, true_and] at rest ⊢
      have shift : (fun j e => StoreItem.entry tb (i + (j + 1)) e) = fun j e => .entry tb (i + 1 + j) e := by
        funext j e
        congr 1
        omega
      rw [shift]
      exact rest

/-- R170: the run stops at the first entry refused, and only there. -/
theorem applyRun_stops (tb : TableId) (i : Nat) (es : List Entry) (s : State) :
    let r := applyRun tb i es s
    (∀ k, r.2.1 = some k → k = i + r.1.length ∧ r.1.length < es.length ∧
      ∃ e, es[r.1.length]? = some e ∧ applyEntry tb k e r.2.2 = none) ∧
    (r.2.1 = none → r.1.length = es.length) := by
  induction es generalizing i s with
  | nil => simp [applyRun]
  | cons e es ih =>
    cases applied : applyEntry tb i e s with
    | none => simp [applyRun, applied]
    | some u =>
      obtain ⟨stops, runs⟩ := ih (i + 1) (reportChanges s u)
      simp only [applyRun, applied, List.length_cons, List.getElem?_cons_succ] at stops runs ⊢
      refine ⟨fun k refused => ?_, fun none => by rw [runs none]⟩
      obtain ⟨index, fewer, entry⟩ := stops k refused
      exact ⟨by omega, by omega, entry⟩

/-- Settles O14. -/
theorem loadStopsAtRefusedEntry : Obligations.LoadStopsAtRefusedEntry := fun tb i es s =>
  ⟨(applyRun_stops tb i es s).1, (applyRun_stops tb i es s).2, applyRun_chain tb i es s, applyRun_items tb i es s⟩

end Sys2Proof.Safety

/-! PROOFS. Phase evaluation (sections 2.4 and 2.5). -/

namespace Sys2Proof.Safety

-- One proof at a time: the package as one text then compiles within the memory it is given.
set_option Elab.async false

open Sys2Proof.Machine

/-! ### What a promotion makes of the floors and the stairs (R40, R41) -/

/-- The floors whose state differs between two states. -/
def floorsMoved (s t : State) : List (Fin 64) :=
  (List.finRange 64).filter fun f => (t.seq.floors.get f).state != (s.seq.floors.get f).state

theorem mem_floorsMoved {s t : State} {f : Fin 64} :
    f ∈ floorsMoved s t ↔ (t.seq.floors.get f).state ≠ (s.seq.floors.get f).state := by
  simp [floorsMoved]

/-- Of the floors moved all were moved in the second of two parts, but for one moved in the first. -/
theorem floorsMoved_length {s t u : State} {f : Fin 64}
    (first : ∀ g, g ≠ f → (t.seq.floors.get g).state = (s.seq.floors.get g).state) :
    (floorsMoved s u).length ≤ (floorsMoved t u).length + 1 := by
  have nodup : (floorsMoved s u).Nodup := (List.nodup_finRange 64).filter _
  refine (nodup.subperm (l₂ := f :: floorsMoved t u) fun g moved => ?_).length_le
  by_cases g = f
  · simp_all
  · rw [mem_floorsMoved] at moved
    exact List.mem_cons_of_mem _ (mem_floorsMoved.mpr (by rwa [first g ‹_›]))

/-- R41: the charges of one floor change each of its stairs once, and no other. -/
theorem charges_stairs (f : Fin 64) (share : Nat) {l : List (Fin 4)} (nodup : l.Nodup) (s : State) (st : Fin 4) :
    let x := s.seq.stairs.get st
    let y := (l.foldl (charge f share) s).seq.stairs.get st
    y.budget = x.budget ∧ y.committed = if st ∈ l then x.committed + share else x.committed := by
  induction l generalizing s with
  | nil => simp
  | cons a l ih =>
    obtain ⟨fresh, rest⟩ := List.nodup_cons.mp nodup
    obtain ⟨budget, committed⟩ := ih rest (charge f share s a)
    rw [List.foldl_cons]
    refine ⟨budget.trans ?_, committed.trans ?_⟩
    · rw [charge, setStair_seq_stairs, Tbl.get_set]
      split
      · next same => rw [same]
      · rfl
    · rw [charge, setStair_seq_stairs, Tbl.get_set]
      by_cases same : a = st
      · subst same
        simp [fresh]
      · simp [same, Ne.symm same]

theorem noteNoStair_stairs (f : Fin 64) (s : State) : (noteNoStair f s).seq.stairs = s.seq.stairs := by
  unfold noteNoStair
  split
  · rfl
  · rw [appendLog_seq, setFloor_seq_stairs]

theorem noteNoStair_floor (f g : Fin 64) (s : State) :
    ((noteNoStair f s).seq.floors.get g).state = (s.seq.floors.get g).state := by
  unfold noteNoStair
  split
  · rfl
  · rw [appendLog_seq, setFloor_seq_floors, Tbl.get_set]
    split
    · next same => rw [same]
    · rfl

theorem charges_floors (f : Fin 64) (share : Nat) (l : List (Fin 4)) (s : State) :
    (l.foldl (charge f share) s).seq.floors = s.seq.floors :=
  foldl_keeps (fun u => u.seq.floors) (f := charge f share) (fun _ _ => rfl) l s

/-- What a promotion does before the floor changes state: it charges the stairs, or notes that there is none (R40). -/
def chargedFor (f : Fin 64) (s : State) : State :=
  if availableStairs s f = [] then noteNoStair f s
  else if floorShare s f = 0 then s else (availableStairs s f).foldl (charge f (floorShare s f)) s

theorem promote_eq (cause : PromotionCause) (f : Fin 64) (s : State) :
    promote cause f s =
      let u := chargedFor f s
      let x := u.seq.floors.get f
      appendLog .floorPromoted (.floor f) (.promoted cause x.urgency)
        (setFloor f { x with state := .evacuate, cause := some cause, promotedAt := now u } u) := rfl

theorem chargedFor_floor (f g : Fin 64) (s : State) :
    ((chargedFor f s).seq.floors.get g).state = (s.seq.floors.get g).state := by
  unfold chargedFor
  split
  · exact noteNoStair_floor f g s
  · split
    · rfl
    · rw [charges_floors]

/-- R40: a promotion takes its floor to EVACUATE and leaves the state of every other floor. -/
theorem promote_floor (cause : PromotionCause) (f g : Fin 64) (s : State) :
    ((promote cause f s).seq.floors.get g).state =
      if f = g then .evacuate else (s.seq.floors.get g).state := by
  rw [promote_eq]
  extract_lets u x
  rw [appendLog_seq, setFloor_seq_floors, Tbl.get_set]
  split
  · rfl
  · exact chargedFor_floor f g s

theorem promote_stairs (cause : PromotionCause) (f : Fin 64) (s : State) :
    (promote cause f s).seq.stairs = (chargedFor f s).seq.stairs := by
  rw [promote_eq, appendLog_seq, setFloor_seq_stairs]

/-- R39: a floor that fits its stairs brings none of them above its budget. -/
theorem chargedFor_stair {f : Fin 64} {s : State} (fit : fits s f = true) (st : Fin 4) :
    let x := s.seq.stairs.get st
    let y := (chargedFor f s).seq.stairs.get st
    y.budget = x.budget ∧ y.committed ≤ max x.committed x.budget := by
  extract_lets x y
  by_cases none : availableStairs s f = []
  · have same : y = x := by simp only [y, x, chargedFor, if_pos none, noteNoStair_stairs]
    exact ⟨by rw [same], by rw [same]; exact le_max_left _ _⟩
  · by_cases free : floorShare s f = 0
    · have same : y = x := by simp only [y, x, chargedFor, if_neg none, if_pos free]
      exact ⟨by rw [same], by rw [same]; exact le_max_left _ _⟩
    · obtain ⟨budget, committed⟩ :=
        charges_stairs f (floorShare s f) ((List.nodup_finRange 4).filter (available s f)) s st
      have charged : y = ((availableStairs s f).foldl (charge f (floorShare s f)) s).seq.stairs.get st := by
        simp only [y, chargedFor, if_neg none, if_neg free]
      rw [charged]
      refine ⟨budget, committed.trans_le ?_⟩
      split
      · next used =>
        have fitsHere := List.all_eq_true.mp fit st used
        exact le_max_of_le_right (of_decide_eq_true fitsHere)
      · exact le_max_left _ _

/-! ### One phase evaluation (R43) -/

/-- R39, R43: what `k` floors promoted from `s` at most leave behind: the budgets, no stair charged beyond them, and at
most `k` floors moved. -/
structure FitsBudgets (k : Nat) (s t : State) : Prop where
  stairs : ∀ st, (t.seq.stairs.get st).budget = (s.seq.stairs.get st).budget ∧
    (t.seq.stairs.get st).committed ≤ max (s.seq.stairs.get st).committed (s.seq.stairs.get st).budget
  floors : (floorsMoved s t).length ≤ k

theorem FitsBudgets.refl (k : Nat) (s : State) : FitsBudgets k s s :=
  ⟨fun _ => ⟨rfl, le_max_left _ _⟩, by simp [floorsMoved]⟩

/-- R39: one promotion that fits, and then `k` more. -/
theorem FitsBudgets.promoted {k : Nat} {f : Fin 64} {s t : State} (fit : fits s f = true)
    (h : FitsBudgets k (promote .phase f s) t) : FitsBudgets (k + 1) s t := by
  refine ⟨fun st => ?_, (floorsMoved_length (f := f) fun g other => ?_).trans (Nat.succ_le_succ h.floors)⟩
  · obtain ⟨budget, committed⟩ := h.stairs st
    obtain ⟨budget', committed'⟩ := chargedFor_stair fit st
    rw [promote_stairs] at budget committed
    rw [budget'] at committed
    exact ⟨budget.trans budget', committed.trans (max_le committed' (le_max_right _ _))⟩
  · rw [promote_floor, if_neg (Ne.symm other)]

theorem FitsBudgets.noStair {k : Nat} {f : Fin 64} {s t : State} (h : FitsBudgets k (noteNoStair f s) t) :
    FitsBudgets k s t := by
  have moved : floorsMoved (noteNoStair f s) t = floorsMoved s t := by simp only [floorsMoved, noteNoStair_floor]
  obtain ⟨stairs, floors⟩ := h
  rw [noteNoStair_stairs] at stairs
  exact ⟨stairs, moved ▸ floors⟩

theorem evaluate_fits (fs : List (Fin 64)) (k : Nat) (s : State) : FitsBudgets k s (evaluate fs k s) := by
  induction fs generalizing k s with
  | nil => cases k <;> exact .refl _ s
  | cons f fs ih =>
    cases k with
    | zero => exact .refl 0 s
    | succ k =>
      unfold evaluate
      split
      · exact (ih (k + 1) (noteNoStair f s)).noStair
      · split
        · next fit => exact (ih k (promote .phase f s)).promoted fit
        · exact .refl _ s

theorem completeIfDone_floors (s : State) : (completeIfDone s).seq.floors = s.seq.floors := by
  unfold completeIfDone
  split <;> rfl

theorem completeIfDone_stairs (s : State) : (completeIfDone s).seq.stairs = s.seq.stairs := by
  unfold completeIfDone
  split <;> rfl

/-- Settles O15. -/
theorem phasePromotionsFitBudgets : Obligations.PhasePromotionsFitBudgets := by
  intro s st
  obtain ⟨stairs, floors⟩ := evaluate_fits (candidates s) s.params.floorsPerStep s
  simp only [phaseEvaluation, completeIfDone_floors, completeIfDone_stairs]
  exact ⟨(stairs st).1, (stairs st).2, floors⟩

end Sys2Proof.Safety

/-! PROOFS. What the end of an event leaves, and events that leave every poll as it is: the layer the commands' own proofs
stand on. -/

namespace Sys2Proof.Safety

-- One proof at a time: the package as one text then compiles within the memory it is given.
set_option Elab.async false

open Sys2Proof.Machine

/-! ### The end of an event, field by field -/

section Finish

variable (before s : State)

@[simp] theorem finish_powered : (finish before s).powered = s.powered := by rw [finish_eq]
@[simp] theorem finish_zones : (finish before s).zones = s.zones := by rw [finish_eq]
@[simp] theorem finish_regime : (finish before s).regime = s.regime := by rw [finish_eq]
@[simp] theorem finish_seq : (finish before s).seq = s.seq := by rw [finish_eq]
@[simp] theorem finish_lifts : (finish before s).lifts = s.lifts := by rw [finish_eq]
@[simp] theorem finish_doors : (finish before s).doors = s.doors := by rw [finish_eq]
@[simp] theorem finish_ann : (finish before s).ann = s.ann := by rw [finish_eq]
@[simp] theorem finish_port : (finish before s).port = s.port := by rw [finish_eq]
@[simp] theorem finish_cls : (finish before s).cls = s.cls := by rw [finish_eq]
@[simp] theorem finish_log : (finish before s).log = s.log := by rw [finish_eq]
@[simp] theorem finish_params : (finish before s).params = s.params := by rw [finish_eq]
@[simp] theorem finish_addrs : (finish before s).addrs = s.addrs := by rw [finish_eq]
@[simp] theorem finish_mgmt : (finish before s).mgmt = s.mgmt := by rw [finish_eq]
@[simp] theorem finish_failures : (finish before s).failures = s.failures := by rw [finish_eq]
@[simp] theorem finish_pending : (finish before s).pending = s.pending := by rw [finish_eq]
@[simp] theorem finish_sline_stations : (finish before s).sline.stations = s.sline.stations := by rw [finish_eq]
@[simp] theorem finish_sline_pointer : (finish before s).sline.pointer = s.sline.pointer := by rw [finish_eq]
@[simp] theorem finish_sline_burst : (finish before s).sline.burst = s.sline.burst := by rw [finish_eq]
@[simp] theorem finish_sline_mode : (finish before s).sline.mode = s.sline.mode := by rw [finish_eq]
@[simp] theorem finish_sline_quietTimer : (finish before s).sline.quietTimer = s.sline.quietTimer := by rw [finish_eq]
@[simp] theorem finish_sline_txn : (finish before s).sline.txn = s.sline.txn := by rw [finish_eq]
@[simp] theorem finish_sline_line : (finish before s).sline.line = s.sline.line := by rw [finish_eq]

end Finish

/-- The end of an event changes two blocks, and those may be among the ones an event changes. -/
theorem Within.finished {bs : List Block} {s t : State} (w : Within bs s t)
    (m : Block.early ∈ bs ∧ Block.lines ∈ bs := by decide) : Within bs s (finish s t) :=
  w.trans ((finish_within s t).mono (by simpa using m))

theorem Keeps.finished {bs : List Block} {s t : State} (k : Keeps bs s t)
    (m : Block.early ∈ bs ∧ Block.lines ∈ bs := by decide) : Keeps bs s (finish s t) :=
  k.trans ((finish_within s t).mono (by simpa using m)).toKeeps

/-! ### Calm operations: no owner reports changed commands, and the regime stays -/

/-- What an operation leaves when no owner reports changed commands in it (R151) and the regime stays. -/
structure Calm (s t : State) : Prop where
  regime : t.regime = s.regime
  owners : t.notes.owners = s.notes.owners

theorem Calm.refl (s : State) : Calm s s := ⟨rfl, rfl⟩

theorem Calm.trans {s t u : State} (h : Calm s t) (k : Calm t u) : Calm s u :=
  ⟨k.regime.trans h.regime, k.owners.trans h.owners⟩

theorem Calm.ite {s t u : State} {p : Prop} [Decidable p] (h : Calm s t) (k : Calm s u) :
    Calm s (if p then t else u) := by
  split
  · exact h
  · exact k

theorem Calm.foldl {α : Type} {f : State → α → State} (h : ∀ s a, Calm s (f s a)) (l : List α) (s : State) :
    Calm s (l.foldl f s) := by
  induction l generalizing s with
  | nil => exact .refl s
  | cons a l ih => exact (h s a).trans (ih _)

theorem appendLog_calm (k : EventKind) (x : Subject) (d : Detail) (s : State) : Calm s (appendLog k x d s) :=
  ⟨appendLog_regime .., appendLog_notes_owners ..⟩

theorem queueReport_calm (dest : Byte) (cls : Nat) (p : Payload) (s : State) : Calm s (queueReport dest cls p s) :=
  ⟨offer_regime _ s, offer_notes_owners _ s⟩

theorem reply_calm (dst sub : Byte) (r : Reply) (index : Nat) (data : List Byte) (s : State) :
    Calm s (reply dst sub r index data s) := queueReport_calm ..

theorem replyData_calm (dst sub : Byte) (frames : List (List Byte)) (s : State) : Calm s (replyData dst sub frames s) :=
  .foldl (fun s data => reply_calm dst sub .done 0 data s) frames s

theorem setRx_calm (l : Line) (r : Rx) (s : State) : Calm s (setRx l r s) := by cases l <;> exact ⟨rfl, rfl⟩

/-- The blocks the contents of the polls are taken from (R153). -/
def pollInputs : List Block := [.lifts, .doors, .ann, .seq, .params, .stations]

/-- R151: an event of calm operations that leaves what the polls are taken from as it was ends with no station joining the
early-poll list. -/
theorem finish_of_same_inputs {s t : State} (k : ∀ b ∈ pollInputs, same b s t) (calm : Calm (beginEvent s) t) :
    finish s t = settleLines s t := by
  have stations : t.sline.stations = s.sline.stations := k .stations (by decide)
  have floors : t.seq = s.seq := k .seq (by decide)
  exact finish_same ⟨k .lifts (by decide), k .doors (by decide), k .ann (by decide), by rw [floors],
    k .params (by decide), by rw [calm.regime, beginEvent_regime], fun i => by rw [stations]⟩ calm.owners

theorem finish_calm {bs : List Block} {s t : State} (k : Keeps bs s t) (calm : Calm (beginEvent s) t)
    (m : ∀ b ∈ pollInputs, b ∉ bs := by decide) : finish s t = settleLines s t :=
  finish_of_same_inputs (fun b hb => k.only b (m b hb)) calm

theorem Within.calm_finished {bs cs : List Block} {s t : State} (w : Within bs s t) (calm : Calm (beginEvent s) t)
    (m : ∀ b ∈ pollInputs, b ∉ bs := by decide) (sub : ∀ b ∈ Block.lines :: bs, b ∈ cs := by decide) :
    Within cs s (finish s t) := by
  rw [finish_calm w.toKeeps calm m]
  exact (w.mono fun b hb => sub b (List.mem_cons_of_mem _ hb)).trans
    ((settleLines_within s t).mono (by simpa using sub _ (List.mem_cons_self)))

/-! ### Frames of the P-line taken whole (R118, R132, R168) -/

/-- The state in which a frame taken on the P-line is dealt with. -/
abbrev frameTaken (s : State) : State := setRx .p .hunt (beginEvent s)

theorem takenFrame_calm (s : State) : Calm (beginEvent s) (setRx .p .hunt (beginEvent s)) := setRx_calm ..

theorem takenFrame_silent (s : State) : Silent s (setRx .p .hunt (beginEvent s)) := ⟨rfl, rfl⟩

/-- R168, R169: a MANAGE frame with its parameters, whose subcode is handled. -/
theorem manage_handled {h : Hdr} {key : BitVec 32} {s : State} (o : ManageOpen h key s) (sub : Byte) (params : List Byte)
    {enough : Bool} (long : enough = true) (act : State → State) :
    effect (fromP (manage h key sub params enough act)) s = .next (finish s (act (setRx .p .hunt (beginEvent s)))) := by
  obtain ⟨powered, dst, writes, wait, known⟩ := o
  have dst' : toBridge (setRx .p .hunt (beginEvent s)) h.dst = true := dst
  rw [effect_on _ powered, fromP, manage, if_pos dst']
  have idle : ¬ (writing (setRx .p .hunt (beginEvent s)) = true ∨
      (setRx .p .hunt (beginEvent s)).mgmt.wait.isSome = true) := by
    simp [writing, writes, wait]
  have right : ¬ key ≠ (setRx .p .hunt (beginEvent s)).mgmt.key := by simpa using known
  rw [checked, if_neg idle, if_neg right, long]
  rfl

/-- A MANAGE frame handled by calm operations that leave what the polls are taken from as it was. -/
theorem manage_calm {h : Hdr} {key : BitVec 32} {s : State} (o : ManageOpen h key s) (subcode : Byte) (params : List Byte)
    {enough : Bool} (long : enough = true) {act : State → State} {bs : List Block} (cs : List Block)
    (w : Within bs (frameTaken s) (act (frameTaken s))) (calm : Calm (frameTaken s) (act (frameTaken s)))
    (m : ∀ b ∈ pollInputs, b ∉ .receivers :: bs := by decide)
    (sub : ∀ b ∈ Block.lines :: .receivers :: bs, b ∈ cs := by decide) :
    effect (fromP (manage h key subcode params enough act)) s = .next (settleLines s (act (frameTaken s))) ∧
      Within cs s (settleLines s (act (frameTaken s))) := by
  have done : Within (.receivers :: bs) s (act (frameTaken s)) :=
    ((takenFrame_within s).mono (by simp)).trans (w.mono (by simp))
  have both := (takenFrame_calm s).trans calm
  have settled := finish_calm done.toKeeps both m
  rw [manage_handled o _ _ long, settled]
  exact ⟨rfl, settled ▸ done.calm_finished both m sub⟩

/-- R168: one reply, offered while nothing else has been logged or reported. -/
theorem reply_offered (dst sub : Byte) (r : Reply) (index : Nat) (data : List Byte) {s t : State} (h : Silent s t) :
    Offered dst 3 (.manageReply sub r index data) s (reply dst sub r index data t) := queueReport_offered _ _ _ h

theorem Offered.finished {dest : Byte} {cls : Nat} {p : Payload} {s t : State} (h : Offered dest cls p s t) (before : State) :
    Offered dest cls p s (finish before t) := by
  obtain ⟨queue, log⟩ := h
  exact ⟨by rw [finish_port, queue], by rw [finish_log, log]⟩

theorem Silent.finished {s t : State} (h : Silent s t) (before : State) : Silent s (finish before t) := by
  obtain ⟨log, queue⟩ := h
  exact ⟨by rw [finish_log, log], by rw [finish_port, queue]⟩

/-- A MANAGE frame handled by one reply and nothing else. -/
theorem manage_replied {h : Hdr} {key : BitVec 32} {s : State} (o : ManageOpen h key s) (sub : Byte) (params : List Byte)
    {enough : Bool} (long : enough = true) {act : State → State} {sub' : Byte} {r : Reply} {index : Nat} {data : List Byte}
    (acts : act (setRx .p .hunt (beginEvent s)) = reply h.src sub' r index data (setRx .p .hunt (beginEvent s))) :
    ∃ t, effect (fromP (manage h key sub params enough act)) s = .next t ∧
      Offered h.src 3 (.manageReply sub' r index data) s t ∧ Within [.receivers, .lines] s t := by
  refine ⟨_, manage_handled o sub params long act, ?_, ?_⟩ <;> rw [acts]
  · exact (reply_offered _ _ _ _ _ (takenFrame_silent s)).finished s
  · exact ((takenFrame_within s).trans (reply_within _ _ _ _ _ _ _)).calm_finished
      ((takenFrame_calm s).trans (reply_calm ..))

open Sys2Proof.Laws.RoundTrip (be_length key_be)

/-! ### Replies that carry data (R168) -/

/-- What a reply's frames make of the queue and the log is taken from the queue and the log alone. -/
theorem replyData_silent (dst sub : Byte) (frames : List (List Byte)) {s t : State} (h : Silent s t) :
    Silent (replyData dst sub frames s) (replyData dst sub frames t) := by
  induction frames generalizing s t with
  | nil => exact h
  | cons data frames ih =>
    refine ih ?_
    obtain ⟨queue, log⟩ := reply_offered dst sub .done 0 data h
    exact ⟨log, queue⟩

theorem length_place (e : QEntry) (q : List QEntry) : (place e q).length = q.length + 1 := by
  rw [place, List.length_append, List.length_cons, ← Nat.add_assoc, ← List.length_append,
    List.takeWhile_append_dropWhile]

/-- R168: the entry of the report queue that a reply is. -/
def manageEntry (dst sub : Byte) (r : Reply) (index : Nat) (data : List Byte) (s : State) : QEntry :=
  { dest := dst, cls := 3, payload := .manageReply sub r index data, stamp := now s, sending := false }

/-- R125: with room in the queue a reply logs nothing. -/
theorem reply_of_room (dst sub : Byte) (r : Reply) (index : Nat) (data : List Byte) {s : State}
    (room : s.port.queue.length < 32) :
    reply dst sub r index data s = { s with port := placeEntry (manageEntry dst sub r index data s) s.port } :=
  offer_of_room _ room

/-- R125: with room for its frames in the queue a reply logs nothing, and the queue it makes is taken from the queue and the
timestamp alone. -/
theorem replyData_of_room (dst sub : Byte) (frames : List (List Byte)) {s t : State}
    (room : s.port.queue.length + frames.length ≤ 32) (queue : t.port.queue = s.port.queue)
    (stamp : t.log.stamp = s.log.stamp) :
    (replyData dst sub frames t).log = t.log ∧
      (replyData dst sub frames t).port.queue = (replyData dst sub frames s).port.queue := by
  induction frames generalizing s t with
  | nil => exact ⟨rfl, queue⟩
  | cons data frames ih =>
    have long : (data :: frames).length = frames.length + 1 := rfl
    have roomS : s.port.queue.length < 32 := by omega
    have roomT : t.port.queue.length < 32 := by rw [queue]; exact roomS
    have first := reply_of_room dst sub .done 0 data roomS
    have second := reply_of_room dst sub .done 0 data roomT
    have placed : (reply dst sub .done 0 data s).port.queue.length = s.port.queue.length + 1 := by
      rw [first]
      exact length_place _ _
    have next := ih (s := reply dst sub .done 0 data s) (t := reply dst sub .done 0 data t) (by omega)
      (by rw [first, second]; simp [placeEntry, manageEntry, now, queue, stamp]) (by rw [first, second]; exact stamp)
    refine ⟨next.1.trans ?_, next.2⟩
    rw [second]

/-! ### READ TABLE, READ RECORD (R172, R173) -/

/-- R122: one record is carried in one frame, after its count. -/
theorem recordFrames_one (before r : List Byte) : recordFrames before [r] = [before ++ (1 :: r)] := by
  simp [recordFrames, gather, b1, be]

/-- R172: what READ TABLE returns of one record: its entry, and its message row for a floor (R28). -/
theorem configBytes_eq (s : State) (tb : TableId) (i : Nat) :
    configBytes s tb i = entryBytes i (configEntry s tb i) ++
      if tb = .floorTable then entryBytes i (configEntry s .messageRows i) else [] := by
  cases tb <;> rfl

theorem tableFrames_one (s : State) {tb : TableId} {i : Nat} (last : i ≤ (tableRange tb).2) :
    tableFrames s (.table tb) i 1 = [1 :: configBytes s tb i] := by
  have one : min 1 ((tableRange tb).2 + 1 - i) = 1 := by omega
  have records : tableRecords s (.table tb) i 1 = [configBytes s tb i] := by
    simp only [tableRecords, readRange, one]
    rfl
  rw [tableFrames, records, recordFrames_one]
  rfl

theorem readTable_one (src : Byte) (s : State) {tb : TableId} {i : Byte} (first : (tableRange tb).1 ≤ i.toNat)
    (last : i.toNat ≤ (tableRange tb).2) :
    readTable src [BitVec.ofNat 8 tb.ctorIdx, i, 1] s = reply src 1 .done 0 (1 :: configBytes s tb i.toNat) s := by
  have code : ofCode readTables (param [BitVec.ofNat 8 tb.ctorIdx, i, 1] 0) = some (.table tb) := by
    cases tb <;> rfl
  have inRange : ¬ (i.toNat < (tableRange tb).1 ∨ (tableRange tb).2 < i.toNat) := by omega
  simp only [readTable, code]
  refine (if_neg (by simp [param])).trans ((if_neg inRange).trans ?_)
  show replyData src subReadTable (tableFrames s (.table tb) i.toNat 1) s = _
  rw [tableFrames_one s last]
  rfl

theorem readRecord_regime (src : Byte) (s : State) :
    readRecord src [3] s = reply src 2 .done 0 (regimeRecord s) s := by
  show replyData src subReadRecord (runOn (regimeRecord s)) s = _
  have short : (regimeRecord s).length = 10 := by simp [regimeRecord, b1, be_length]
  have one : runOn (regimeRecord s) = [regimeRecord s] := by simp [runOn, short, chunks, dataRoom]
  rw [one]
  rfl

theorem regimeRecord_eq (s : State) : regimeRecord s =
    [BitVec.ofNat 8 s.regime.state.ctorIdx, if s.regime.allClearDone then 1 else 0,
      if s.regime.relockDone then 1 else 0, BitVec.ofNat 8 s.seq.state.ctorIdx] ++
      be 2 (seconds s.seq.phase.left) ++ be 4 s.seq.planClock := by
  have asByte : ∀ b : Bool, BitVec.ofNat 8 (flag b) = if b then 1 else 0 := by decide
  simp [regimeRecord, b1, be, asByte]

/-- Settles O36: either read is one reply. -/
theorem readsReturnRecords : Obligations.ReadsReturnRecords := by
  intro h key s o
  refine ⟨fun tb i first last => ?table, ?regime⟩
  case table =>
    rw [← configBytes_eq]
    exact manage_replied o _ _ rfl (readTable_one h.src _ first last)
  case regime =>
    obtain ⟨t, step, offered, within⟩ := manage_replied (s := s) o subReadRecord [3] (enough := recordParams [3]) rfl
      (readRecord_regime h.src _)
    refine ⟨t, step, ?_, within⟩
    rw [← regimeRecord_eq]
    exact offered

/-! ### READ LOG (R162, R163) -/

theorem logFrames_length_le (l : EventLog) (start : BitVec 16) (count : Nat) : (logFrames l start count).length ≤ 2 := by
  simp only [logFrames, byFours, List.length_map]
  split <;> simp

/-- R163: the event log once a READ LOG has been answered DONE. -/
def logRead (s : State) : State := { s with log := { s.log with sinceRead := 0 } }

theorem logRead_same (b : Block) (s : State) : same b s (logRead s) := by
  cases b <;> simp [same, logRead]

theorem readLog_counted (src : Byte) {hi lo count : Byte} (s : State) (atLeast : 1 ≤ count.toNat)
    (atMost : count.toNat ≤ 8) :
    readLog src [hi, lo, count] s =
      replyData src 3 (logFrames s.log (BitVec.ofNat 16 (hi.toNat * 256 + lo.toNat)) count.toNat) (logRead s) := by
  have inRange : ¬ (count.toNat = 0 ∨ 8 < count.toNat) := by omega
  have start : ofBE [hi, lo] = hi.toNat * 256 + lo.toNat := by simp [ofBE]
  rw [← start]
  exact if_neg inRange

/-- Settles O37: a READ LOG answered DONE is the count set to 0 and the reply's frames, which find room. -/
theorem readLogClearsTheCount : Obligations.ReadLogClearsTheCount := by
  intro h key hi lo count s o atLeast atMost room
  set frames := logFrames s.log (BitVec.ofNat 16 (hi.toNat * 256 + lo.toNat)) count.toNat with framed
  set u := replyData h.src 3 frames (logRead (frameTaken s)) with replied
  have reads : readLog h.src [hi, lo, count] (frameTaken s) = u := readLog_counted h.src _ atLeast atMost
  have calm : Calm (beginEvent s) u := (takenFrame_calm s).trans
    ((show Calm (frameTaken s) (logRead (frameTaken s)) from ⟨rfl, rfl⟩).trans (replyData_calm ..))
  have only : ∀ b, b ∉ [Block.receivers] → same b s u := fun b hb =>
    same_trans ((takenFrame_within s).only b hb) (same_trans (logRead_same b _)
      ((replyData_within [] h.src 3 frames _).only b (by simp)))
  have settled := finish_of_same_inputs (fun b hb => only b (by revert b; decide)) calm
  have fits : s.port.queue.length + frames.length ≤ 32 := by
    have short : frames.length ≤ 2 := logFrames_length_le ..
    omega
  obtain ⟨log, queue⟩ := replyData_of_room h.src 3 frames (s := s) (t := logRead (frameTaken s)) fits rfl rfl
  refine ⟨settleLines s u, ?_, log, queue, calm.regime, fun b hb => ?_⟩
  · rw [← settled, ← reads]
    exact manage_handled o _ _ rfl _
  · exact same_trans (only b (by simp_all)) ((settleLines_within s u).only b (by simp_all))

/-! ### READ CAPTURE (R141) -/

theorem param_byte (k : Byte) (rest : List Byte) : param (k :: rest) 0 = k.toNat := rfl

theorem index_of_fin {n : Nat} (i : Fin n) : index? n i.val = some i := by simp [index?]

theorem param_fin {n : Nat} (small : n ≤ 256) (i : Fin n) (rest : List Byte) :
    index? n (param (BitVec.ofNat 8 i.val :: rest) 0) = some i := by
  have low : i.val < 256 := by omega
  rw [param_byte, BitVec.toNat_ofNat, Nat.mod_eq_of_lt low, index_of_fin]

theorem index_of_le {n i : Nat} (h : n ≤ i) : index? n i = none := by simp [index?, h]

/-- R141: a capture slot emptied. -/
def emptySlot (k : Fin 4) (s : State) : State := { s with cls := { s.cls with slots := s.cls.slots.set k none } }

theorem captureBytes_eq (o : Option Capture) : captureBytes o = match o with
    | none => [0]
    | some c => 1 :: (c.bytes ++ be 4 c.stamp.toNat ++ [BitVec.ofNat 8 c.element.val]) := by
  cases o <;> simp [captureBytes, b1, be]

theorem readCapture_slot (src : Byte) (k : Fin 4) (s : State) : readCapture src [BitVec.ofNat 8 k.val] s =
    replyData src 4 (runOn (captureBytes (s.cls.slots.get k))) (emptySlot k s) := by
  simp only [readCapture, param_fin (by decide : 4 ≤ 256) k]
  rfl

/-- Settles O38. -/
theorem readCaptureEmptiesTheSlot : Obligations.ReadCaptureEmptiesTheSlot := by
  intro h key s o
  refine ⟨fun k => ?slot, fun k above => ?none⟩
  case slot =>
    have reads := readCapture_slot h.src k (frameTaken s)
    have calm : Calm (frameTaken s) (readCapture h.src [BitVec.ofNat 8 k.val] (frameTaken s)) := by
      rw [reads]
      exact Calm.trans (t := emptySlot k (frameTaken s)) ⟨rfl, rfl⟩ (replyData_calm ..)
    obtain ⟨step, within⟩ := manage_calm o subReadCapture [BitVec.ofNat 8 k.val] rfl [.receivers, .cls, .lines]
      (readCapture_within h.src _ _) calm
    rw [reads] at step within
    have cls := (replyData_within [] h.src 4 (runOn (captureBytes (s.cls.slots.get k)))
      (emptySlot k (frameTaken s))).cls (by simp)
    have queue := (replyData_silent h.src 4 (runOn (captureBytes (s.cls.slots.get k)))
      (s := s) (t := emptySlot k (frameTaken s)) ⟨rfl, rfl⟩).2
    refine ⟨_, step, ?_, fun j other => ?_, ?_, ?_, ?_, within⟩
    · exact (congrArg (fun c => c.slots.get k) cls).trans (Tbl.get_set_self ..)
    · exact (congrArg (fun c => c.slots.get j) cls).trans (Tbl.get_set_ne _ _ other.symm)
    · exact (congrArg Classifier.queue cls :)
    · exact (congrArg Classifier.filter cls :)
    · exact queue.trans (congrArg (fun d => (replyData h.src 4 (runOn d) s).port.queue) (captureBytes_eq _))
  case none =>
    refine manage_replied o subReadCapture [k] rfl ?_
    simp only [readCapture, param_byte, index_of_le above]
    rfl

/-! ### ACKNOWLEDGE LINES (R166) -/

/-- R165: where nothing comes to hold within an event, and nothing ceases to, a line is settled by its latch and the
conditions that hold. -/
theorem settleLine_of_same {before s : State} (holding : ∀ c, holds s c = holds before c) (onsets : s.notes.onsets = 0)
    (l : CommonLine) :
    settleLine before s l = { l with
      latch := l.latched && l.latch
      output := (l.latched && l.latch) || anyHolds before l } := by
  have none : anyOnset before s l = false := by
    simp [anyOnset, onset, noted, holding, onsets]
  rw [settleLine, none, Bool.or_false, anyHolds_congr holding]

theorem acknowledged_get (s : State) (l : Fin 2) : (acknowledge s).lines.get l =
    if (s.lines.get l).latched then { s.lines.get l with latch := false } else s.lines.get l := by
  rw [acknowledge, Tbl.get_map]

theorem acknowledged_get_latched {s : State} {l : Fin 2} (latched : (s.lines.get l).latched = true) :
    (acknowledge s).lines.get l = { s.lines.get l with latch := false } := by
  rw [acknowledged_get, if_pos latched]

theorem acknowledged_get_level {s : State} {l : Fin 2} (level : (s.lines.get l).latched = false) :
    (acknowledge s).lines.get l = s.lines.get l := by
  rw [acknowledged_get, if_neg (by simp [level])]

theorem acknowledgeAll_of_room (src : Byte) {s : State} (room : s.port.queue.length < 32) :
    acknowledgeAll src s = { acknowledge s with
      port := placeEntry (manageEntry src subAcknowledgeLines .done 0 [] s) s.port } :=
  reply_of_room src subAcknowledgeLines .done 0 [] (s := acknowledge s) room

/-- Settles O43: with room for the reply no condition changes, and the lines settle by their latches. -/
theorem acknowledgeClearsLatches : Obligations.AcknowledgeClearsLatches := by
  intro h key params s o room
  set u := acknowledgeAll h.src (frameTaken s) with handled
  have shape := acknowledgeAll_of_room h.src (s := frameTaken s) room
  have calm : Calm (frameTaken s) u := by
    rw [handled, shape]
    exact ⟨rfl, rfl⟩
  obtain ⟨step, within⟩ := manage_calm o subAcknowledgeLines params rfl [.receivers, .lines]
    (acknowledgeAll_within h.src _) calm
  have holding : ∀ c, holds u c = holds s c := by
    intro c
    rw [handled, shape]
    cases c <;> rfl
  have onsets : u.notes.onsets = 0 := by rw [handled, shape]; rfl
  have lines : u.lines = (acknowledge s).lines := by rw [handled, shape]; rfl
  refine ⟨_, step, fun l latched => ?latched, fun l level clear => ?level, ?log, ?offered, within⟩
  case latched =>
    rw [settleLines_lines, Tbl.get_map, settleLine_of_same holding onsets, lines, acknowledged_get_latched latched]
    simp [anyHolds, routed]
  case level =>
    rw [settleLines_lines, Tbl.get_map, settleLine_of_same holding onsets, lines, acknowledged_get_level level]
    simp [clear]
  case log => exact (congrArg State.log shape :)
  case offered => exact reply_offered h.src 10 .done 0 [] (t := acknowledge (frameTaken s)) ⟨rfl, rfl⟩

/-! ### SET KEY, RESTART, and the checks made of every subcode (R168, R174, R175) -/

theorem beginWrite_calm (w : StoreWrite) (s : State) : Calm s (beginWrite w s) := ⟨rfl, rfl⟩

theorem changeKey_eq (src : Byte) (new : BitVec 32) {s : State} (writes : s.mgmt.writes = []) :
    changeKey src (be 4 new.toNat) s = { s with mgmt := { s.mgmt with
      key := new, writes := [{ items := [.key new], reply := some (src, 11, .done, 0) }] } } := by
  have whole : (be 4 new.toNat).take 4 = be 4 new.toNat := List.take_of_length_le (by rw [be_length])
  simp only [changeKey, whole, key_be, beginWrite, writes]
  rfl

theorem setKey_handled {h : Hdr} {key : BitVec 32} {s : State} (o : ManageOpen h key s) (new : BitVec 32) :
    ∃ t, exec (.setKey h key (be 4 new.toNat)) s = .next t ∧
      t.mgmt = { s.mgmt with
        key := new, writes := [{ items := [.key new], reply := some (h.src, 11, .done, 0) }] } ∧
      Silent s t ∧ Within [.receivers, .mgmt, .lines] s t := by
  have shape := changeKey_eq h.src new (s := frameTaken s) o.2.2.1
  have calm : Calm (frameTaken s) (changeKey h.src (be 4 new.toNat) (frameTaken s)) := by
    rw [shape]
    exact ⟨rfl, rfl⟩
  obtain ⟨step, within⟩ := manage_calm o subSetKey (be 4 new.toNat)
    (enough := decide (4 ≤ (be 4 new.toNat).length)) (by rw [be_length]; rfl) [.receivers, .mgmt, .lines]
    (changeKey_within h.src _ _) calm
  refine ⟨_, step, ?_, ?_, within⟩
  · rw [shape]
    rfl
  · rw [shape]
    exact ⟨rfl, rfl⟩

theorem restart_handled {h : Hdr} {key : BitVec 32} {s : State} (o : ManageOpen h key s) (params : List Byte)
    (quiescent : s.regime.state = .quiescent) :
    ∃ t, exec (.restart h key params) s = .next t ∧ t.mgmt = { s.mgmt with wait := some (ticks 2) } ∧
      Offered h.src 3 (.manageReply 12 .done 0 []) s t ∧ Within [.receivers, .mgmt, .lines] s t := by
  set w : State := { frameTaken s with mgmt := { s.mgmt with wait := some (ticks 2) } } with waiting
  have asks : askRestart h.src (frameTaken s) = reply h.src 12 .done 0 [] w := if_pos quiescent
  have calm : Calm (frameTaken s) (askRestart h.src (frameTaken s)) := by
    rw [asks]
    exact Calm.trans (t := w) ⟨rfl, rfl⟩ (reply_calm ..)
  obtain ⟨step, within⟩ := manage_calm o subRestart params rfl [.receivers, .mgmt, .lines]
    (askRestart_within h.src _) calm
  rw [asks] at step within
  exact ⟨_, step, (reply_within [] h.src 12 .done 0 [] w).mgmt (by simp),
    reply_offered h.src 12 .done 0 [] (t := w) ⟨rfl, rfl⟩, within⟩

/-- A frame taken on the P-line and set aside. -/
theorem frame_setAside {f : State → State} {s : State} (powered : s.powered = true)
    (idle : f (frameTaken s) = frameTaken s) :
    ∃ t, effect (fromP f) s = .next t ∧ Silent s t ∧ Within [.receivers, .lines] s t := by
  refine ⟨finish s (frameTaken s), ?_, (takenFrame_silent s).finished s, (takenFrame_within s).calm_finished (takenFrame_calm s)⟩
  rw [effect_on _ powered, fromP, idle]

/-- Every MANAGE frame the bridge knows, and one with an unknown subcode, is checked and handled in one way (R168). -/
theorem manageFrame_exec (h : Hdr) (key : BitVec 32) (sub : Byte) (params : List Byte) :
    ∀ c ∈ (Instr.manageUnknownSubcode h key sub params, sub) :: manageFrames h key params,
      ∃ enough act, ∀ s, exec c.1 s = effect (fromP (manage h key c.2 params enough act)) s := by
  simp only [manageFrames, List.forall_mem_cons]
  refine ⟨⟨_, _, fun _ => rfl⟩, ⟨_, _, fun _ => rfl⟩, ⟨_, _, fun _ => rfl⟩, ⟨_, _, fun _ => rfl⟩,
    ⟨_, _, fun _ => rfl⟩, ⟨_, _, fun _ => rfl⟩, ⟨_, _, fun _ => rfl⟩, ⟨_, _, fun _ => rfl⟩,
    ⟨_, _, fun _ => rfl⟩, ⟨_, _, fun _ => rfl⟩, ⟨_, _, fun _ => rfl⟩, ⟨_, _, fun _ => rfl⟩,
    ⟨_, _, fun _ => rfl⟩, ⟨_, _, fun _ => rfl⟩,
    fun _ none => absurd none List.not_mem_nil⟩

theorem manage_answered {h : Hdr} {key : BitVec 32} {sub : Byte} {params : List Byte} {enough : Bool}
    {act : State → State} {s : State} (powered : s.powered = true) (dst : toBridge s h.dst = true) {r : Reply}
    (answers : checked h.src sub key enough act (frameTaken s) = reply h.src sub r 0 [] (frameTaken s)) :
    ∃ t, effect (fromP (manage h key sub params enough act)) s = .next t ∧
      Offered h.src 3 (.manageReply sub r 0 []) s t ∧ t.regime = s.regime ∧ Within [.receivers, .lines] s t := by
  have dst' : toBridge (frameTaken s) h.dst = true := dst
  have calm := (takenFrame_calm s).trans (reply_calm h.src sub r 0 [] (frameTaken s))
  refine ⟨finish s (reply h.src sub r 0 [] (frameTaken s)), ?_,
    (reply_offered h.src sub r 0 [] (takenFrame_silent s)).finished s, ?_,
    ((takenFrame_within s).trans (reply_within _ _ _ _ _ _ _)).calm_finished calm⟩
  · rw [effect_on _ powered, fromP, manage, if_pos dst', answers]
  · rw [finish_regime, calm.regime, beginEvent_regime]

/-- R168: a frame whose parameters are too few is answered BAD COUNT. -/
theorem manage_short {h : Hdr} {key : BitVec 32} {s : State} (o : ManageOpen h key s) (sub : Byte) (params : List Byte)
    {enough : Bool} (short : enough = false) (act : State → State) :
    ∃ t, effect (fromP (manage h key sub params enough act)) s = .next t ∧
      Offered h.src 3 (.manageReply sub .badCount 0 []) s t ∧ Within [.receivers, .lines] s t := by
  obtain ⟨powered, dst, writes, wait, known⟩ := o
  have idle : ¬ (writing (frameTaken s) = true ∨ (frameTaken s).mgmt.wait.isSome = true) := by
    simp [writing, writes, wait]
  have right : ¬ key ≠ (frameTaken s).mgmt.key := by simpa using known
  obtain ⟨t, step, offered, -, within⟩ := manage_answered (act := act) (enough := enough) (sub := sub) (params := params) powered dst
    (r := .badCount) (by rw [checked, if_neg idle, if_neg right, short]; rfl)
  exact ⟨t, step, offered, within⟩

/-- Settles O44. -/
theorem keyRestartAndUnknownSubcodes : Obligations.KeyRestartAndUnknownSubcodes := by
  refine ⟨fun h key new s o => setKey_handled o new, fun h key params s o quiescent => restart_handled o params quiescent,
    fun h key sub params s o => manage_replied (act := reply h.src sub .unknown 0 []) o sub params (enough := true) rfl rfl, fun h payload s powered dst => ?setAside,
    fun h key sub params s powered dst c mem => ?checks⟩
  case setAside => exact frame_setAside powered (if_pos dst)
  case checks =>
    obtain ⟨enough, act, runs⟩ := manageFrame_exec h key sub params c mem
    simp only [runs]
    refine ⟨fun busy => manage_answered powered dst (if_pos ?_), fun writes wait wrong => ?_⟩
    · rcases busy with writing | waiting
      · exact .inl (by simpa [Machine.writing] using writing)
      · exact .inr waiting
    · have idle : ¬ (writing (frameTaken s) = true ∨ (frameTaken s).mgmt.wait.isSome = true) := by
        simp [writing, writes, wait]
      exact manage_answered powered dst (by rw [checked, if_neg idle]; exact if_pos wrong)

/-! ### The isolation list (R16, R18, R20) -/

theorem markIsolated_get (e : IsoEntry) (s : State) (z : Fin 256) :
    (markIsolated e s).zones.table.get z = { s.zones.table.get z with
      isolated := (s.zones.table.get z).isolated || decide (e.scope = .zone z ∧ e.active = true) } := by
  obtain ⟨scope, active⟩ := e
  cases scope with
  | points panel low high => simp [markIsolated]
  | zone y =>
    cases active with
    | false => simp [markIsolated]
    | true =>
      by_cases same : y = z
      · simp [markIsolated, same]
      · simp [markIsolated, same, Tbl.get_set_ne]

/-- R18: a mark of isolation changes the zone table alone. -/
theorem markIsolated_eq (e : IsoEntry) (s : State) :
    markIsolated e s = { s with zones := { s.zones with table := (markIsolated e s).zones.table } } := by
  unfold markIsolated
  split
  · split <;> rfl
  · rfl

/-- R16: the entry that ISOLATE makes of a scope. -/
def newEntry (c : Scope) (s : State) : IsoEntry := { scope := c, active := allQuiet s c }

theorem appendIsolation_eq (c : Scope) (s : State) :
    appendIsolation c s = { s with zones := { s.zones with
      isolation := s.zones.isolation ++ [newEntry c s]
      table := (appendIsolation c s).zones.table } } :=
  markIsolated_eq (newEntry c s) _

theorem appendIsolation_isolation (c : Scope) (s : State) :
    (appendIsolation c s).zones.isolation = s.zones.isolation ++ [newEntry c s] := by
  rw [appendIsolation_eq]

theorem appendIsolation_get (c : Scope) (s : State) (z : Fin 256) :
    (appendIsolation c s).zones.table.get z = { s.zones.table.get z with
      isolated := (s.zones.table.get z).isolated || decide (c = .zone z ∧ allQuiet s c = true) } :=
  markIsolated_get (newEntry c s) _ z

theorem appendIsolation_calm (c : Scope) (s : State) : Calm s (appendIsolation c s) := by
  rw [appendIsolation_eq]
  exact ⟨rfl, rfl⟩

theorem appendIsolation_silent (c : Scope) (s : State) : Silent s (appendIsolation c s) := by
  rw [appendIsolation_eq]
  exact ⟨rfl, rfl⟩

theorem reportZone_zones (z : Fin 256) (s : State) : (reportZone z s).zones = s.zones :=
  (reportZone_within [] z s).zones (by simp)

theorem removeIsolation_isolation (c : Scope) (s : State) :
    (removeIsolation c s).zones.isolation = s.zones.isolation.filter fun e => e.scope != c := by
  cases c with
  | zone z => simp [removeIsolation, reportZone_zones]
  | points panel low high => rfl

theorem removeIsolation_get (c : Scope) (s : State) (z : Fin 256) :
    (removeIsolation c s).zones.table.get z = { s.zones.table.get z with
      isolated := (s.zones.table.get z).isolated && decide (c ≠ .zone z) } := by
  cases c with
  | points panel low high => simp [removeIsolation]
  | zone y =>
    by_cases same : y = z
    · simp [removeIsolation, reportZone_zones, same]
    · simp [removeIsolation, reportZone_zones, same, Tbl.get_set_ne]

theorem reportZone_calm (z : Fin 256) (s : State) : Calm s (reportZone z s) := queueReport_calm ..

theorem removeIsolation_calm (c : Scope) (s : State) : Calm s (removeIsolation c s) := by
  cases c with
  | points panel low high => exact ⟨rfl, rfl⟩
  | zone z =>
    simp only [removeIsolation]
    refine Calm.trans ?_ (reportZone_calm z _)
    exact ⟨rfl, rfl⟩

/-- R171: the write that stores the list and answers. -/
def isolationWrite (src sub : Byte) (s : State) : StoreWrite :=
  { items := isolationItems s, reply := some (src, sub, .done, 0) }

theorem storeIsolation_mgmt (src sub : Byte) {s : State} (writes : s.mgmt.writes = []) :
    (storeIsolation src sub s).mgmt = { s.mgmt with writes := [isolationWrite src sub s] } := by
  simp [storeIsolation, beginWrite, writes, isolationWrite]

theorem isolateScope_new (src : Byte) {params : List Byte} {c : Scope} {s : State}
    (named : (parseScope params).bind checkScope = some c) (new : holdsScope s c = false)
    (room : s.zones.isolation.length < 64) :
    isolateScope src params s = storeIsolation src 5 (appendIsolation c s) := by
  simp only [isolateScope, named]
  rw [if_neg (by simp [new]), if_neg (by omega)]
  rfl

theorem deIsolateScope_held (src : Byte) {params : List Byte} {c : Scope} {s : State}
    (named : (parseScope params).bind checkScope = some c) (held : holdsScope s c = true) :
    deIsolateScope src params s = storeIsolation src 6 (removeIsolation c s) := by
  simp only [deIsolateScope, named, held]
  rfl

/-- Settles O39. -/
theorem isolationListChanges : Obligations.IsolationListChanges := by
  intro h key params c s o named
  have whole : (parseScope params).isSome = true := by
    cases parsed : parseScope params with
    | none => simp [parsed] at named
    | some raw => rfl
  refine ⟨fun new room => ?isolate, fun held => ?deIsolate⟩
  case isolate =>
    have acts := isolateScope_new h.src (s := frameTaken s) named new room
    obtain ⟨step, within⟩ := manage_calm o subIsolate params whole [.receivers, .zones, .mgmt, .lines]
      (isolateScope_within h.src params _)
      (by rw [acts]; exact (appendIsolation_calm c _).trans (beginWrite_calm _ _))
    rw [acts] at step within
    have mgmt : (appendIsolation c (frameTaken s)).mgmt = s.mgmt := (appendIsolation_within c _).mgmt (by simp)
    refine ⟨_, step, appendIsolation_isolation c (frameTaken s), appendIsolation_get c (frameTaken s), ?_,
      appendIsolation_silent c (frameTaken s), within⟩
    rw [settleLines_mgmt, storeIsolation_mgmt h.src 5 (by rw [mgmt]; exact o.2.2.1), mgmt, isolationWrite,
      isolationItems, appendIsolation_isolation, List.map_append]
    rfl
  case deIsolate =>
    have acts := deIsolateScope_held h.src (s := frameTaken s) named held
    obtain ⟨step, within⟩ := manage_calm o subDeIsolate params whole [.receivers, .zones, .mgmt, .lines]
      (deIsolateScope_within h.src params _)
      (by rw [acts]; exact (removeIsolation_calm c _).trans (beginWrite_calm _ _))
    rw [acts] at step within
    have mgmt : (removeIsolation c (frameTaken s)).mgmt = s.mgmt := (removeIsolation_within c _).mgmt (by simp)
    refine ⟨_, step, removeIsolation_isolation c (frameTaken s), removeIsolation_get c (frameTaken s), ?_, within⟩
    rw [settleLines_mgmt, storeIsolation_mgmt h.src 6 (by rw [mgmt]; exact o.2.2.1), mgmt, isolationWrite,
      isolationItems, removeIsolation_isolation]
    rfl

/-! ### Racks (R95, R97) -/

theorem setRack_only (r : Fin 4) (x : Rack) (s : State) : Within [.ann] s (setRack r x s) :=
  .of_only (fun b hb => by cases b <;> simp_all [same, setRack]) rfl rfl rfl

theorem rackCode_eq (src : Byte) (r : Fin 4) (code : Byte) {s : State} (writes : s.mgmt.writes = []) :
    let c := min 100 code.toNat
    rackCode src [BitVec.ofNat 8 r.val, code] s =
      { setRack r { s.ann.racks.get r with
          code := c, countdown := if c ≤ 60 then ticks (c * 10) else ticks ((c - 50) * 60) } s with
        mgmt := { s.mgmt with writes := [{ items := [.code r c], reply := some (src, 8, .done, 0) }] } } := by
  intro c
  have clamped : clamp 0 100 (param [BitVec.ofNat 8 r.val, code] 1) = c := Nat.zero_max _
  simp only [rackCode, param_fin (by decide : 4 ≤ 256) r, clamped, beginWrite, setCode, setRack_mgmt, writes]
  rfl

/-- Settles O41. -/
theorem countdownTurnsRackOff : Obligations.CountdownTurnsRackOff := by
  refine ⟨fun h key r code s o => ?stored, fun r s powered runs => ?ends⟩
  case stored =>
    intro c
    have acts := rackCode_eq h.src r code (s := frameTaken s) o.2.2.1
    have within : Within [.ann, .mgmt] (frameTaken s) (rackCode h.src [BitVec.ofNat 8 r.val, code] (frameTaken s)) := by
      rw [acts]
      exact .of_only (fun b hb => by cases b <;> simp_all [same, setRack]) rfl rfl rfl
    refine ⟨_, manage_handled o subRackCountdown _ rfl _, ?_, ?_, Silent.finished ?_ s,
      ((takenFrame_within s).mono (by simp)).trans (within.mono (cs := [.receivers, .ann, .mgmt, .lines, .early])
        (by simp)) |>.finished⟩
    · rw [finish_ann, acts]
      rfl
    · rw [finish_mgmt, acts]
      rfl
    · rw [acts]
      exact ⟨rfl, rfl⟩
  case ends =>
    have acts : countdownEnd r (beginEvent s) = noteRack r (setRack r { s.ann.racks.get r with
        commanded := .standby, power := .standby, countdown := 0 } (beginEvent s)) := if_pos runs
    have within := (setRack_only r { s.ann.racks.get r with
      commanded := .standby, power := .standby, countdown := 0 } (beginEvent s)).trans (noteRack_within _ r _)
    refine ⟨_, effect_on _ powered, ?_, ?_, ?_⟩
    · rw [finish_ann, acts]
      rfl
    · rw [acts]
      exact Silent.finished ⟨rfl, rfl⟩ s
    · rw [acts]
      exact ((beginEvent_within [.ann, .early, .lines] s).trans (within.mono (by simp))).finished

/-! ### TEST DOOR (R88) -/

theorem logDoorFault_doors (i : Fin 128) (old new : DoorPoint) (cause : DoorFaultCause) (s : State) :
    (logDoorFault i old new cause s).doors = s.doors :=
  (logDoorFault_within [] i old new cause s).doors (by simp)

theorem changePoint_doors (i : Fin 128) (cause : DoorFaultCause) (old new : DoorPoint) (s : State) :
    (changePoint i cause old new s).doors = { s.doors with points := s.doors.points.set i (some new) } := by
  unfold changePoint
  extract_lets u
  have changed : u.doors = { s.doors with points := s.doors.points.set i (some new) } := logDoorFault_doors ..
  split
  · rw [(reportPoint_within [] i new u).doors (by simp), changed]
  · exact changed

/-- R80: what a command leaves of a point: the lock commanded, the configuration and the feedback; and no point comes to be
HELD OPEN by it. -/
structure CommandKeeps (c : Lock) (p q : DoorPoint) : Prop where
  commanded : q.commanded = c
  controller : q.controller = p.controller
  output : q.output = p.output
  floor : q.floor = p.floor
  stair : q.stair = p.stair
  feedback : q.feedback = p.feedback
  pending : q.pending = p.pending
  test : q.test = p.test
  heldOpen : p.supervision ≠ .heldOpen → q.supervision ≠ .heldOpen

theorem judgeCommand_cases (s : State) (p : DoorPoint) :
    judgeCommand s p = p ∨ judgeCommand s p = toCorrect p ∨ judgeCommand s p = startMismatch s p := by
  unfold judgeCommand
  split
  · exact .inl rfl
  · split
    · exact .inr (.inl rfl)
    · exact .inr (.inr rfl)
  · split
    · exact .inr (.inl rfl)
    · exact .inr (.inr rfl)
  · exact .inl rfl

theorem command_keeps (s : State) (c : Lock) (p : DoorPoint) : CommandKeeps c p (command s c p) := by
  unfold command
  split
  · next already => exact ⟨already, rfl, rfl, rfl, rfl, rfl, rfl, rfl, id⟩
  · rcases judgeCommand_cases s { p with commanded := c } with e | e | e <;> rw [e]
    · exact ⟨rfl, rfl, rfl, rfl, rfl, rfl, rfl, rfl, id⟩
    · exact ⟨rfl, rfl, rfl, rfl, rfl, rfl, rfl, rfl, fun _ h => nomatch h⟩
    · exact ⟨rfl, rfl, rfl, rfl, rfl, rfl, rfl, rfl, fun _ h => nomatch h⟩

theorem doorTest_inUse (src : Byte) (i : Fin 128) (duration : Byte) {p : DoorPoint} {s : State}
    (quiescent : s.regime.state = .quiescent) (inUse : s.doors.points.get i = some p) :
    doorTest src [BitVec.ofNat 8 i.val, duration] s =
      reply src subTestDoor .done 0 [] (testRelease i p (clamp 5 120 duration.toNat) s) := by
  have open' : ¬ s.regime.state ≠ .quiescent := by simpa using quiescent
  simp only [doorTest, if_neg open', param_fin (by decide : 128 ≤ 256) i, inUse]
  rfl

/-- Settles O42. -/
theorem testDoorReleasesThePoint : Obligations.TestDoorReleasesThePoint := by
  intro h key i duration p s o quiescent inUse
  have acts := doorTest_inUse h.src i duration (s := frameTaken s) quiescent inUse
  set p' : DoorPoint := { p with
    pending := false
    supervision := if p.supervision = .heldOpen then .correct else p.supervision } with freed
  set q := command (frameTaken s) .released p' with released
  have keeps : CommandKeeps .released p' q := command_keeps _ _ _
  set q' : DoorPoint := { q with test := some (ticks (clamp 5 120 duration.toNat)) } with tested
  have tests : testRelease i p (clamp 5 120 duration.toNat) (frameTaken s) =
      changePoint i .cleared p q' (frameTaken s) := rfl
  have doors : (doorTest h.src [BitVec.ofNat 8 i.val, duration] (frameTaken s)).doors =
      { s.doors with points := s.doors.points.set i (some q') } := by
    rw [acts, (reply_within [] h.src subTestDoor .done 0 [] _).doors (by simp), tests, changePoint_doors]
    rfl
  refine ⟨_, q', manage_handled o subTestDoor _ rfl _, ?_, keeps.commanded, rfl, keeps.pending, keeps.heldOpen ?_,
    keeps.controller, keeps.output, keeps.floor, keeps.stair, keeps.feedback, fun j other => ?_, ?_, ?_⟩
  · rw [finish_doors, doors, Tbl.get_set_self]
  · show (if p.supervision = .heldOpen then Supervision.correct else p.supervision) ≠ .heldOpen
    split
    · exact fun h => nomatch h
    · assumption
  · rw [finish_doors, doors, Tbl.get_set_ne _ _ other.symm]
  · rw [finish_doors, doors]
  · exact (((takenFrame_within s).mono (by simp)).trans ((doorTest_within h.src _ _).mono
      (cs := [.receivers, .doors, .early, .lines]) (by simp))).finished

/-! ### A load of stair entries (R31, R169 to R171) -/

/-- R31: the stair that an entry makes. -/
def loadedStair (x : Stair) (capacity window : Nat) (m : ReleaseMode) : Stair :=
  { x with capacity, window := max 1 (min 15 window), mode := m, budget := capacity * max 1 (min 15 window) }

theorem ofCode_releaseModes (mode : Byte) : ofCode releaseModes mode.toNat =
    if mode.toNat ≤ 1 then some (if mode = 0 then .all else .follow) else none := by
  by_cases low : mode.toNat ≤ 1
  · rw [if_pos low]
    have values : mode = 0 ∨ mode = 1 := by
      rcases Nat.le_one_iff_eq_zero_or_eq_one.mp low with zero | one
      · exact .inl (BitVec.eq_of_toNat_eq zero)
      · exact .inr (BitVec.eq_of_toNat_eq one)
    rcases values with rfl | rfl <;> rfl
  · rw [if_neg low]
    exact List.getElem?_eq_none (by simp [releaseModes]; omega)

/-- R170: the stair entries the bridge accepts. -/
theorem applyEntry_stair_good (st : Fin 4) (capacity window : Nat) {mode : Byte} (s : State) (good : mode.toNat ≤ 1) :
    applyEntry .stairTable st.val (.stair capacity window mode.toNat) s =
      some (setStair st (loadedStair (s.seq.stairs.get st) capacity window (if mode = 0 then .all else .follow)) s) := by
  simp only [applyEntry, index_of_fin, Option.bind_some, applyStair, ofCode_releaseModes, if_pos good]
  rfl

theorem applyEntry_stair_bad {i : Nat} (capacity window : Nat) {mode : Byte} (s : State)
    (bad : 4 ≤ i ∨ 2 ≤ mode.toNat) : applyEntry .stairTable i (.stair capacity window mode.toNat) s = none := by
  rcases bad with past | high
  · simp [applyEntry, index_of_le past]
  · have none' : ¬ mode.toNat ≤ 1 := by omega
    cases named : index? 4 i with
    | none => simp [applyEntry, named]
    | some st => simp [applyEntry, named, applyStair, ofCode_releaseModes, none']

/-- R122: a stair entry is its three bytes. -/
theorem parseEntry_stair (i : Nat) (a b c : Byte) (rest : List Byte) :
    parseEntry .stairTable i (a :: b :: c :: rest) = some (.stair a.toNat b.toNat c.toNat, rest) := by
  simp [parseEntry, fields, field, ofBE]

/-- R77, R151: a change of a stair's configuration changes no poll. -/
theorem reportChanges_setStair (st : Fin 4) (x : Stair) {s : State} (owners : s.notes.owners = []) :
    reportChanges s (setStair st x s) = setStair st x s :=
  reportChanges_same ⟨rfl, rfl, rfl, rfl, rfl, rfl, fun _ => rfl⟩ owners

/-- The state a load of one good stair entry leaves, the entry answered by `r` with `index`. -/
def stairLoaded (src : Byte) (st : Fin 4) (capacity window mode : Byte) (r : Reply) (index : Nat) (s : State) : State :=
  beginWrite
    { items := [.entry .stairTable st.val (.stair capacity.toNat window.toNat mode.toNat)]
      reply := some (src, subLoadTable, r, index) }
    (appendLog .tableLoaded (.table .stairTable) (.loaded st.val 1)
      (setStair st (loadedStair (s.seq.stairs.get st) capacity.toNat window.toNat (if mode = 0 then .all else .follow)) s))

/-- R168, R169: a load whose entries are all there. -/
theorem loadTable_parsed (src : Byte) {params : List Byte} {t : TableId} {es : List Entry} (s : State)
    (code : ofCode tableIds (param params 0) = some t) (count : ¬ (param params 2 = 0 ∨ 8 < param params 2))
    (parsed : parseEntries t (param params 1) (param params 2) (params.drop 3) = some es) :
    loadTable src params s = if s.regime.state = .quiescent then runLoad src t (param params 1) es s
      else reply src subLoadTable .refusedRegime 0 [] s := by
  simp only [loadTable, code, if_neg count, parsed]

section StairLoads

variable (src : Byte) (st : Fin 4) (capacity window mode : Byte) {s : State}

theorem runLoad_one (owners : s.notes.owners = []) (good : mode.toNat ≤ 1) :
    runLoad src .stairTable st.val [.stair capacity.toNat window.toNat mode.toNat] s =
      stairLoaded src st capacity window mode .done 0 s := by
  simp only [runLoad, applyRun, applyEntry_stair_good st _ _ s good, reportChanges_setStair st _ owners]
  rfl

theorem runLoad_bad {i : Nat} (bad : 4 ≤ i ∨ 2 ≤ mode.toNat) :
    runLoad src .stairTable i [.stair capacity.toNat window.toNat mode.toNat] s =
      reply src subLoadTable .badEntry i [] s := by
  simp only [runLoad, applyRun, applyEntry_stair_bad _ _ s bad]
  rfl

theorem runLoad_two (capacity' window' : Byte) {mode' : Byte} (owners : s.notes.owners = []) (good : mode.toNat ≤ 1)
    (bad : 4 ≤ st.val + 1 ∨ 2 ≤ mode'.toNat) :
    runLoad src .stairTable st.val [.stair capacity.toNat window.toNat mode.toNat,
        .stair capacity'.toNat window'.toNat mode'.toNat] s =
      stairLoaded src st capacity window mode .badEntry (st.val + 1) s := by
  simp only [runLoad, applyRun, applyEntry_stair_good st _ _ s good, reportChanges_setStair st _ owners,
    applyEntry_stair_bad _ _ _ bad]
  rfl

theorem loadTable_one (start : Byte) (quiescent : s.regime.state = .quiescent) :
    loadTable src [3, start, 1, capacity, window, mode] s =
      runLoad src .stairTable start.toNat [.stair capacity.toNat window.toNat mode.toNat] s := by
  rw [loadTable_parsed src (params := [3, start, 1, capacity, window, mode]) (t := .stairTable) s rfl (by simp [param])
    (by simp [param, parseEntries, parseEntry_stair]; rfl), if_pos quiescent]
  rfl

theorem loadTable_two (start capacity' window' mode' : Byte) (quiescent : s.regime.state = .quiescent) :
    loadTable src [3, start, 2, capacity, window, mode, capacity', window', mode'] s =
      runLoad src .stairTable start.toNat [.stair capacity.toNat window.toNat mode.toNat,
        .stair capacity'.toNat window'.toNat mode'.toNat] s := by
  rw [loadTable_parsed src (params := [3, start, 2, capacity, window, mode, capacity', window', mode'])
    (t := .stairTable) s rfl (by simp [param]) (by simp [param, parseEntries, parseEntry_stair]; rfl), if_pos quiescent]
  rfl

end StairLoads

/-- R169: outside QUIESCENT a load is answered and nothing more, and a stair entry is refused for the regime. -/
theorem loadTable_elsewhere (src : Byte) (params : List Byte) {s : State} (elsewhere : s.regime.state ≠ .quiescent) :
    ∃ r ∈ [Reply.badTable, .badCount, .refusedRegime], loadTable src params s = reply src 0 r 0 [] s ∧
      ∀ start capacity window mode, params = [3, start, 1, capacity, window, mode] → r = .refusedRegime := by
  by_cases stair : ∃ start capacity window mode, params = [3, start, 1, capacity, window, mode]
  · obtain ⟨start, capacity, window, mode, rfl⟩ := stair
    refine ⟨.refusedRegime, by simp, ?_, fun _ _ _ _ _ => rfl⟩
    rw [loadTable_parsed src (params := [3, start, 1, capacity, window, mode]) (t := .stairTable) s rfl
      (by simp [param]) (by simp [param, parseEntries, parseEntry_stair]; rfl), if_neg elsewhere]
    rfl
  · have not : ∀ {r : Reply}, ∀ start capacity window mode, params = [3, start, 1, capacity, window, mode] →
        r = .refusedRegime := fun a b c d shape => absurd ⟨a, b, c, d, shape⟩ stair
    unfold loadTable
    extract_lets start count
    cases ofCode tableIds (param params 0) with
    | none => exact ⟨.badTable, by simp, rfl, not⟩
    | some t =>
      by_cases out : count = 0 ∨ 8 < count
      · exact ⟨.badCount, by simp, if_pos out, not⟩
      · simp only [if_neg out]
        cases parseEntries t start count (params.drop 3) with
        | none => exact ⟨.badCount, by simp, rfl, not⟩
        | some es => exact ⟨.refusedRegime, by simp, if_neg elsewhere, not⟩

/-- What a load of one good stair entry leaves, and what it may change. -/
theorem stairLoaded_handled {h : Hdr} {key : BitVec 32} {s : State} (o : ManageOpen h key s) (st : Fin 4)
    (capacity window mode : Byte) (params : List Byte) {enough : Bool} (long : enough = true) (r : Reply) (index : Nat)
    (acts : loadTable h.src params (frameTaken s) =
      stairLoaded h.src st capacity window mode r index (frameTaken s)) :
    ∃ t, effect (fromP (manage h key subLoadTable params enough (loadTable h.src params))) s = .next t ∧
      t.seq.stairs.get st = loadedStair (s.seq.stairs.get st) capacity.toNat window.toNat
        (if mode = 0 then .all else .follow) ∧
      (∀ x, x ≠ st → t.seq.stairs.get x = s.seq.stairs.get x) ∧ t.seq.floors = s.seq.floors ∧
      t.seq.state = s.seq.state ∧
      t.log = appendRecord s.log .tableLoaded (.table .stairTable) (.loaded st.val 1) ∧
      t.mgmt = { s.mgmt with writes :=
        [{ items := [.entry .stairTable st.val (.stair capacity.toNat window.toNat mode.toNat)]
           reply := some (h.src, 0, r, index) }] } ∧
      t.port.queue = s.port.queue ∧ Within [.receivers, .seq, .mgmt, .early, .lines] s t := by
  have writes : s.mgmt.writes = [] := o.2.2.1
  set u := stairLoaded h.src st capacity window mode r index (frameTaken s) with loaded
  have seq : u.seq = { s.seq with stairs := s.seq.stairs.set st (loadedStair (s.seq.stairs.get st) capacity.toNat
      window.toNat (if mode = 0 then .all else .follow)) } := by
    simp only [loaded, stairLoaded, beginWrite, appendLog_seq]
    rfl
  have within : Within [.receivers, .seq, .mgmt, .early, .lines] s u :=
    ((takenFrame_within s).mono (by simp)).trans (((setStair_within st _ _).mono (by simp)).trans
      ((appendLog_within _ _ _ _ _).trans ((beginWrite_within _ _).mono (by simp))))
  refine ⟨_, manage_handled o subLoadTable params long _, ?_⟩
  rw [acts]
  refine ⟨?_, fun x other => ?_, ?_, ?_, ?_, ?_, ?_, within.finished⟩
  · rw [finish_seq, seq, Tbl.get_set_self]
  · rw [finish_seq, seq, Tbl.get_set_ne _ _ other.symm]
  · rw [finish_seq, seq]
  · rw [finish_seq, seq]
  · rw [finish_log, loaded]
    simp only [stairLoaded, beginWrite, appendLog_log]
    rfl
  · rw [finish_mgmt, loaded]
    simp only [stairLoaded, beginWrite, appendLog_mgmt, setStair_mgmt, setRx_p_mgmt, beginEvent_mgmt, writes]
    rfl
  · rw [finish_port, loaded]
    simp only [stairLoaded, beginWrite, appendLog_port]
    rfl

/-- Settles O35. -/
theorem loadAppliesStairEntry : Obligations.LoadAppliesStairEntry := by
  refine ⟨fun h key st capacity window mode s o quiescent good => ?one,
    fun h key start capacity window mode s o quiescent bad => ?refused,
    fun h key st capacity window mode capacity' window' mode' s o quiescent good bad => ?two,
    fun h key params s o elsewhere => ?elsewhere⟩
  case one =>
    have index : (BitVec.ofNat 8 st.val).toNat = st.val := by simp; omega
    refine stairLoaded_handled o st capacity window mode [3, BitVec.ofNat 8 st.val, 1, capacity, window, mode] rfl
      .done 0 ?_
    rw [loadTable_one h.src capacity window mode _ (s := frameTaken s) quiescent, index]
    exact runLoad_one h.src st capacity window mode rfl good
  case refused =>
    refine manage_replied o subLoadTable [3, start, 1, capacity, window, mode] rfl ?_
    rw [loadTable_one h.src capacity window mode start (s := frameTaken s) quiescent]
    exact runLoad_bad h.src capacity window mode bad
  case two =>
    have index : (BitVec.ofNat 8 st.val).toNat = st.val := by simp; omega
    refine stairLoaded_handled o st capacity window mode
      [3, BitVec.ofNat 8 st.val, 2, capacity, window, mode, capacity', window', mode'] rfl .badEntry (st.val + 1) ?_
    rw [loadTable_two h.src capacity window mode _ capacity' window' mode' (s := frameTaken s) quiescent, index]
    exact runLoad_two h.src st capacity window mode capacity' window' rfl good
      (bad.imp_left fun last => by rw [last]; decide)
  case elsewhere =>
    by_cases long : 3 ≤ params.length
    · obtain ⟨r, mem, acts, stair⟩ := loadTable_elsewhere h.src params (s := frameTaken s) elsewhere
      obtain ⟨t, step, offered, within⟩ := manage_replied o subLoadTable params (decide_eq_true long) acts
      exact ⟨t, r, step, mem, offered, within, stair⟩
    · obtain ⟨t, step, offered, within⟩ := manage_short o subLoadTable params (decide_eq_false long) (loadTable h.src params)
      exact ⟨t, .badCount, step, by simp, offered, within, fun _ _ _ _ shape => absurd (by simp [shape]) long⟩

end Sys2Proof.Safety

/-! PROOFS. The racks in the operations of the Announcement Scheduler (sections 5.2, 5.3): which of them leave a rack's
address and power as they were. -/

namespace Sys2Proof.Safety

-- One proof at a time: the package as one text then compiles within the memory it is given.
set_option Elab.async false

open Sys2Proof.Machine

/-! ### Operations that at most wake racks -/

/-- R94, R105: every rack keeps its address, and its power but for a rack in STANDBY that has been woken. -/
def Woken (s t : State) : Prop := ∀ r,
  (t.ann.racks.get r).address = (s.ann.racks.get r).address ∧
  ((t.ann.racks.get r).power = (s.ann.racks.get r).power ∨
    ((s.ann.racks.get r).power = .standby ∧ (t.ann.racks.get r).power = .waking))

namespace Woken

theorem refl (s : State) : Woken s s := fun _ => ⟨rfl, .inl rfl⟩

theorem trans {s t u : State} (h : Woken s t) (k : Woken t u) : Woken s u := by
  intro r
  obtain ⟨address, power⟩ := h r
  obtain ⟨address', power'⟩ := k r
  refine ⟨address'.trans address, ?_⟩
  rcases power with same | ⟨standby, waking⟩
  · rw [same] at power'
    exact power'
  · rcases power' with same' | ⟨standby', -⟩
    · exact .inr ⟨standby, same'.trans waking⟩
    · rw [waking] at standby'
      cases standby'

theorem of_racks {s t : State} (h : t.ann.racks = s.ann.racks) : Woken s t := fun r => by
  rw [h]
  exact ⟨rfl, .inl rfl⟩

theorem ite {s t u : State} {p : Prop} [Decidable p] (h : Woken s t) (k : Woken s u) : Woken s (if p then t else u) := by
  split
  · exact h
  · exact k

theorem foldl {α : Type} {f : State → α → State} (h : ∀ s a, Woken s (f s a)) (l : List α) (s : State) :
    Woken s (l.foldl f s) := by
  induction l generalizing s with
  | nil => exact .refl s
  | cons a l ih => exact (h s a).trans (ih _)

theorem forEach {n : Nat} {f : Fin n → State → State} (h : ∀ i s, Woken s (f i s)) (s : State) :
    Woken s (forEach n f s) := .foldl (fun s i => h i s) _ s

end Woken

/-- An operation that does not touch the Scheduler's records leaves every rack as it was. -/
theorem Within.woken {bs : List Block} {s t : State} (w : Within bs s t) (m : Block.ann ∉ bs := by decide) : Woken s t :=
  .of_racks (by rw [w.ann m])

theorem setRack_woken {r : Fin 4} {x : Rack} {s : State} (address : x.address = (s.ann.racks.get r).address)
    (power : x.power = (s.ann.racks.get r).power ∨ ((s.ann.racks.get r).power = .standby ∧ x.power = .waking)) :
    Woken s (setRack r x s) := by
  intro q
  rw [setRack_ann_racks, Tbl.get_set]
  split
  · next same => rw [← same]; exact ⟨address, power⟩
  · exact ⟨rfl, .inl rfl⟩

theorem fullCountdowns_woken (s : State) : Woken s { s with ann := { s.ann with racks := s.ann.racks.map fullCountdown } } :=
  fun r => by rw [Tbl.get_map]; exact ⟨rfl, .inl rfl⟩

theorem setRegime_woken (st : Regime) (cause : RegimeCause) (s : State) : Woken s (setRegime st cause s) :=
  .of_racks (by rw [(setRegime_keeps st cause s).ann (by simp)])

theorem returnQuiescent_woken (s : State) : Woken s (returnQuiescent s) :=
  (setRegime_woken .quiescent .completion s).trans (fullCountdowns_woken _)

theorem setAllClearDone_woken (s : State) : Woken s (setAllClearDone s) := by
  unfold setAllClearDone
  split
  · exact .refl s
  · have done : Woken s { s with regime := { s.regime with allClearDone := true } } := .of_racks rfl
    exact .ite (done.trans (returnQuiescent_woken _)) done

theorem setStatus_woken (e : Fin 16) (st : PageStatus) (s : State) : Woken s (setStatus e st s) := by
  unfold setStatus
  extract_lets _ u
  have h : Woken s u := .of_racks rfl
  split
  · exact .ite h (h.trans (.of_racks rfl))
  · exact h

theorem setSourceStatus_woken (src : Source) (st : PageStatus) (s : State) : Woken s (setSourceStatus src st s) := by
  cases src with
  | liveTenant e => exact setStatus_woken e st s
  | liveBrigade => exact .refl s
  | message m => exact .refl s

theorem setJob_woken (j : Fin 16) (x : Option Job) (s : State) : Woken s (setJob j x s) := .of_racks rfl

theorem setChannel_woken (k : Fin 2) (c : Channel) (s : State) : Woken s (setChannel k c s) := .of_racks rfl

theorem makeOwed_woken (s : State) (p : Standing) : Woken s (makeOwed s p) := by
  unfold makeOwed
  refine .ite (.of_racks rfl) ?_
  split
  · exact .of_racks rfl
  · exact .refl s

theorem dropJob_woken (j : Fin 16) (s : State) : Woken s (dropJob j s) :=
  (setJob_woken j none s).trans (.foldl makeOwed_woken _ _)

theorem dropLive_woken (j : Fin 16) (s : State) : Woken s (dropLive j s) :=
  (Woken.of_racks rfl).trans (dropJob_woken j _)

theorem reportChannel_ann (k : Fin 2) (ended : Option EndCause) (s : State) : (reportChannel k ended s).ann = s.ann :=
  (queueReport_within [] _ _ _ s).ann (by simp)

theorem recharge_woken (s : State) (r : Fin 4) : Woken s (setRack r (fullCountdown (s.ann.racks.get r)) s) :=
  setRack_woken rfl (.inl rfl)

theorem endPlay_woken (k : Fin 2) (cause : EndCause) (s : State) : Woken s (endPlay k cause s) :=
  (Woken.foldl recharge_woken (involved s (s.ann.channels.get k).held) s).trans
    ((Woken.of_racks (by rw [reportChannel_ann])).trans (setChannel_woken k _ _))

theorem afterPlay_woken (cause : EndCause) (j : Fin 16) (s : State) : Woken s (afterPlay cause j s) := by
  have ended : ∀ (y : Job) (c : Prop) [Decidable c] (d : Prop) [Decidable d] (a b : Option Job), Woken s
      (if c then (if y.cls = .allClear then setAllClearDone (dropJob j s) else dropJob j s)
        else if d then setJob j a s else setJob j b s) := fun y c _ d _ a b =>
    .ite (.ite ((dropJob_woken j s).trans (setAllClearDone_woken _)) (dropJob_woken j s))
      (.ite (setJob_woken j a s) (setJob_woken j b s))
  unfold afterPlay
  split
  · exact .refl s
  · next x _ =>
    cases cause with
    | complete => exact ended _ _ _ _ _
    | timeout => exact ended _ _ _ _ _
    | removed => exact dropJob_woken j s
    | dropped =>
      cases x.cls with
      | liveBrigade => exact dropLive_woken j s
      | tenant => exact (setSourceStatus_woken _ _ s).trans (dropJob_woken j _)
      | _ => exact setJob_woken j _ s
    | cut =>
      cases x.cls with
      | liveBrigade => exact dropLive_woken j s
      | tenant => exact (setJob_woken j _ s).trans (setSourceStatus_woken _ _ _)
      | _ => exact setJob_woken j _ s

theorem finishPlay_woken (k : Fin 2) (cause : EndCause) (s : State) : Woken s (finishPlay k cause s) := by
  unfold finishPlay
  split
  · exact endPlay_woken k cause s
  · exact (endPlay_woken k cause s).trans (afterPlay_woken cause _ _)

theorem stopWarm_woken (k : Fin 2) (s : State) : Woken s (stopWarm k s) := by
  have idle : Woken s (idleChannel k s) := setChannel_woken k _ s
  unfold stopWarm
  split
  · exact idle
  · split
    · exact idle
    · exact .ite (idle.trans (dropLive_woken _ _)) (idle.trans (setJob_woken _ _ _))

theorem checkComplete_woken (k : Fin 2) (s : State) : Woken s (checkComplete k s) :=
  .ite (finishPlay_woken k .complete s) (.refl s)

theorem shrink_woken (cause : EndCause) (k : Fin 2) (floors : FloorSet) (s : State) :
    Woken s (shrink cause k floors s) :=
  .ite (.refl s) (.ite
    (.ite ((setChannel_woken k _ s).trans (finishPlay_woken k cause _)) ((setChannel_woken k _ s).trans (stopWarm_woken k _)))
    ((setChannel_woken k _ s).trans (checkComplete_woken k _)))

theorem beginPlay_woken (k : Fin 2) (s : State) : Woken s (beginPlay k s) := by
  unfold beginPlay
  simp only
  split
  · refine Woken.trans (.ite ?_ (setChannel_woken k _ s))
      ((Woken.foldl (fun s r => (noteRack_within [] r s).woken) _ _).trans (.of_racks (by rw [reportChannel_ann])))
    exact (setChannel_woken k _ s).trans ((setJob_woken _ _ _).trans (setSourceStatus_woken _ _ _))
  · exact .refl s

theorem wakeRack_woken (r : Fin 4) (s : State) : Woken s (wakeRack r s) := by
  unfold wakeRack
  extract_lets x
  split
  · next standby =>
    have woken : Woken s (setRack r { x with commanded := .on, power := .waking } s) :=
      setRack_woken rfl (.inr ⟨standby, rfl⟩)
    exact woken.trans (noteRack_within [] r _).woken
  · exact .refl s

theorem startChannel_woken (k : Fin 2) (s : State) : Woken s (startChannel k s) :=
  .ite (beginPlay_woken k s) ((Woken.foldl (fun s r => wakeRack_woken r s) _ s).trans (setChannel_woken k _ _))

theorem give_woken (k : Fin 2) (j : Fin 16) (s : State) : Woken s (give k j s) := by
  unfold give
  split
  · exact .refl s
  · exact (setJob_woken j _ s).trans ((setChannel_woken k _ _).trans
      ((shrink_woken .cut (other k) _ _).trans (startChannel_woken k _)))

theorem fillChannel_woken {k : Fin 2} {s t : State} (h : fillChannel k s = some t) : Woken s t := by
  unfold fillChannel at h
  split at h
  · obtain ⟨j, -, rfl⟩ := Option.map_eq_some_iff.mp h
    exact give_woken k j s
  · cases h

theorem removeUnplayable_woken {s t : State} (h : removeUnplayable s = some t) : Woken s t := by
  obtain ⟨j, -, rfl⟩ := Option.map_eq_some_iff.mp h
  exact .ite ((dropJob_woken j s).trans (setAllClearDone_woken _)) (dropJob_woken j s)

theorem arbiterStep_woken {s t : State} (h : arbiterStep s = some t) : Woken s t := by
  unfold arbiterStep at h
  split at h
  · next u hu => cases h; exact removeUnplayable_woken hu
  · split at h
    · next u hu => cases h; exact fillChannel_woken hu
    · split at h
      · next u hu => cases h; exact fillChannel_woken hu
      · obtain ⟨k, -, rfl⟩ := Option.map_eq_some_iff.mp h
        exact stopWarm_woken k s

theorem arbiter_woken (s : State) : Woken s (arbiter s) := by
  have runs : ∀ n s, Woken s (arbiterRun n s) := by
    intro n
    induction n with
    | zero => exact .refl
    | succ n ih =>
      intro s
      unfold arbiterRun
      split
      · exact .refl s
      · next t h => exact (arbiterStep_woken h).trans (ih t)
  exact runs 64 s

/-! ### A warm-up that runs out (R105) -/

/-- R105: racks that are ON stay ON and racks that are not stay so; a rack in FAULT stays in it, and no address changes. -/
def PowersStay (s t : State) : Prop := ∀ r,
  (t.ann.racks.get r).address = (s.ann.racks.get r).address ∧
  ((t.ann.racks.get r).power = .on ↔ (s.ann.racks.get r).power = .on) ∧
  ((s.ann.racks.get r).power = .fault → (t.ann.racks.get r).power = .fault)

theorem PowersStay.refl (s : State) : PowersStay s s := fun _ => ⟨rfl, .rfl, id⟩

theorem PowersStay.trans {s t u : State} (h : PowersStay s t) (k : PowersStay t u) : PowersStay s u := fun r =>
  ⟨(k r).1.trans (h r).1, (k r).2.1.trans (h r).2.1, fun f => (k r).2.2 ((h r).2.2 f)⟩

theorem Woken.powersStay {s t : State} (h : Woken s t) : PowersStay s t := by
  intro r
  obtain ⟨address, same | ⟨standby, waking⟩⟩ := h r
  · rw [same]
    exact ⟨address, .rfl, id⟩
  · rw [standby, waking]
    exact ⟨address, by simp, fun h => nomatch h⟩

/-- R96: a rack that comes to be ON has its countdown at full. -/
def rackAfter (old x : Rack) : Rack := if x.power = .on ∧ old.power ≠ .on then fullCountdown x else x

theorem changeRack_ann (r : Fin 4) (cause : RackFaultCause) (x : Rack) (s : State) :
    (changeRack r cause x s).ann =
      { s.ann with racks := s.ann.racks.set r (rackAfter (s.ann.racks.get r) x) } := by
  unfold changeRack
  extract_lets old y u
  have set : u.ann = { s.ann with racks := s.ann.racks.set r y } := rfl
  have reported : ∀ z v, (reportRack r z v).ann = v.ann := fun z v => (queueReport_within [] _ _ _ v).ann (by simp)
  split
  · exact (reported _ _).trans ((appendLog_ann ..).trans set)
  · split
    · exact (reported _ _).trans ((appendLog_ann ..).trans set)
    · exact set

theorem changeRack_off (r : Fin 4) (cause : RackFaultCause) {x : Rack} (s : State) (off : x.power ≠ .on) :
    (changeRack r cause x s).ann = { s.ann with racks := s.ann.racks.set r x } := by
  rw [changeRack_ann, rackAfter, if_neg fun h => off h.1]

theorem dropRack_woken (r : Fin 4) (s : State) : Woken s (dropRack r s) :=
  .forEach (fun k s => shrink_woken .dropped k (rackFloors s r) s) s

theorem faultRack_powersStay {r : Fin 4} {s : State} (off : (s.ann.racks.get r).power ≠ .on) :
    PowersStay s (changeRack r .warmUp { s.ann.racks.get r with power := .fault } s) := by
  intro q
  rw [changeRack_off _ _ _ (by simp), Tbl.get_set]
  split
  · next same =>
    rw [← same]
    exact ⟨rfl, ⟨fun h => (nomatch h), fun on => absurd on off⟩, fun _ => rfl⟩
  · exact ⟨rfl, .rfl, id⟩

theorem failRack_on {r : Fin 4} {s : State} (on : (s.ann.racks.get r).power = .on) : failRack s r = s := if_pos on

theorem failRack_off {r : Fin 4} {s : State} (off : (s.ann.racks.get r).power ≠ .on) :
    failRack s r = dropRack r (changeRack r .warmUp { s.ann.racks.get r with power := .fault } s) := if_neg off

theorem failRack_powersStay (s : State) (r : Fin 4) : PowersStay s (failRack s r) := by
  by_cases on : (s.ann.racks.get r).power = .on
  · rw [failRack_on on]
    exact .refl s
  · rw [failRack_off on]
    exact (faultRack_powersStay on).trans (dropRack_woken r _).powersStay

theorem failRack_fault {s : State} {r : Fin 4} (off : (s.ann.racks.get r).power ≠ .on) :
    ((failRack s r).ann.racks.get r).power = .fault := by
  rw [failRack_off off]
  refine ((dropRack_woken r _).powersStay r).2.2 ?_
  rw [changeRack_off _ _ _ (by simp), Tbl.get_set_self]

theorem failRacks_powersStay (rs : List (Fin 4)) (s : State) : PowersStay s (rs.foldl failRack s) := by
  induction rs generalizing s with
  | nil => exact .refl s
  | cons r rs ih => exact (failRack_powersStay s r).trans (ih _)

/-- R105: every rack listed that is not ON is put in FAULT. -/
theorem failRacks_fault {rs : List (Fin 4)} {s : State} {r : Fin 4} (mem : r ∈ rs)
    (off : (s.ann.racks.get r).power ≠ .on) : ((rs.foldl failRack s).ann.racks.get r).power = .fault := by
  induction rs generalizing s with
  | nil => cases mem
  | cons q rs ih =>
    rw [List.foldl_cons]
    rcases List.mem_cons.mp mem with rfl | later
    · exact (failRacks_powersStay rs _ r).2.2 (failRack_fault off)
    · exact ih later fun on => off ((failRack_powersStay s q r).2.1.mp on)

/-! ### The arbiter at rest (R104, R109) -/

theorem pick_none {s : State} {k : Fin 2} (h : ∀ j, eligible s k j = false) : pick s k = none := by
  have none' : (List.finRange 16).filter (eligible s k) = [] := by simp [h]
  rw [pick, none']
  rfl

theorem fillChannel_none {s : State} {k : Fin 2} (h : ∀ j, eligible s k j = false) : fillChannel k s = none := by
  unfold fillChannel
  split
  · rw [pick_none h]
    rfl
  · rfl

theorem removeUnplayable_none {s : State} (h : ∀ j, unplayable s j = false) : removeUnplayable s = none := by
  have none' : first? (unplayable s) = none := by simp [first?, h]
  rw [removeUnplayable, none']
  rfl

theorem takenChannel_none {s : State} (h : ∀ k j, eligible s k j = false) : takenChannel s = none := by
  have no : ∀ k, takeable s k = false := fun k => by
    cases job : channelJob s k <;> simp [takeable, h, job]
  simp [takenChannel, no]

/-- With no job to play and none to remove the arbiter does nothing. -/
theorem arbiterStep_none {s : State} (h : ∀ k j, eligible s k j = false) (u : ∀ j, unplayable s j = false) :
    arbiterStep s = none := by
  simp only [arbiterStep, removeUnplayable_none u, fillChannel_none (h 0), fillChannel_none (h 1),
    takenChannel_none h, Option.map_none]

theorem arbiterRun_rests {s : State} (h : arbiterStep s = none) (n : Nat) : arbiterRun n s = s := by
  cases n with
  | zero => rfl
  | succ n => simp only [arbiterRun, h]

theorem arbiterRun_step {s t : State} (h : arbiterStep s = some t) (n : Nat) : arbiterRun (n + 1) s = arbiterRun n t := by
  simp only [arbiterRun, h]

theorem arbiter_rests {s : State} (h : arbiterStep s = none) : arbiter s = s := arbiterRun_rests h 64

/-- The arbiter makes one step and rests. -/
theorem arbiter_one_step {s t : State} (h : arbiterStep s = some t) (rests : arbiterStep t = none) : arbiter s = t :=
  (arbiterRun_step h 63).trans (arbiterRun_rests rests 63)

/-- R109: no job waits to be played. -/
def NoneWaiting (s : State) : Prop := ∀ j y, s.ann.jobs.get j = some y → y.state ≠ .waiting

theorem NoneWaiting.not_eligible {s : State} (h : NoneWaiting s) (k : Fin 2) (j : Fin 16) : eligible s k j = false := by
  cases held : s.ann.jobs.get j with
  | none => simp [eligible, held]
  | some y => simp [eligible, held, h j y held]

theorem NoneWaiting.not_unplayable {s : State} (h : NoneWaiting s) (j : Fin 16) : unplayable s j = false := by
  cases held : s.ann.jobs.get j with
  | none => simp [unplayable, held]
  | some y => simp [unplayable, held, h j y held]

theorem NoneWaiting.step {s : State} (h : NoneWaiting s) : arbiterStep s = none :=
  arbiterStep_none h.not_eligible h.not_unplayable

theorem NoneWaiting.arbiter {s : State} (h : NoneWaiting s) : Machine.arbiter s = s := arbiter_rests h.step

theorem NoneWaiting.of_jobs {s t : State} (h : NoneWaiting s) (jobs : t.ann.jobs = s.ann.jobs) : NoneWaiting t :=
  fun j y held => h j y (by rw [← jobs, held])

theorem noneWaiting_of_empty {s : State} (h : ∀ j, s.ann.jobs.get j = none) : NoneWaiting s :=
  fun j y held => by rw [h j] at held; cases held

theorem noneWaiting_of_one {s : State} {j : Fin 16} {x : Job} (held : s.ann.jobs.get j = some x)
    (others : ∀ i, i ≠ j → s.ann.jobs.get i = none) (busy : x.state ≠ .waiting) : NoneWaiting s := by
  intro i y hy
  by_cases same : i = j
  · rw [same, held] at hy
    cases hy
    exact busy
  · rw [others i same] at hy
    cases hy

/-! ### Stations that join the early-poll list (R151) -/

theorem mem_joinEarly {i j : Fin 48} {s : State} (h : i ∈ s.sline.early ∨ i = j) : i ∈ (joinEarly j s).sline.early := by
  unfold joinEarly
  split
  · next held =>
    rcases h with h | rfl
    · exact h
    · exact held
  · rcases h with h | rfl <;> simp [*]

theorem mem_joinAll {i : Fin 48} (l : List (Fin 48)) {s : State} (h : i ∈ s.sline.early ∨ i ∈ l) :
    i ∈ (l.foldl (fun s i => joinEarly i s) s).sline.early := by
  induction l generalizing s with
  | nil => exact h.resolve_right List.not_mem_nil
  | cons j l ih =>
    refine ih ?_
    rcases h with h | h
    · exact .inl (mem_joinEarly (.inl h))
    · rcases List.mem_cons.mp h with rfl | h
      · exact .inl (mem_joinEarly (.inr rfl))
      · exact .inr h

/-- R151: a station an owner has reported joins the early-poll list at the end of the event. -/
theorem finish_joins {i : Fin 48} (before : State) {s : State} (h : stationNoted s i = true) :
    i ∈ (finish before s).sline.early := by
  have settled : (finish before s).sline.early = (reportChanges before s).sline.early := rfl
  have changed : i ∈ (List.finRange 48).filter fun i => contentChanged before s i || stationNoted s i := by simp [h]
  rw [settled, reportChanges]
  simp only [if_neg (List.ne_nil_of_mem changed)]
  exact mem_joinAll _ (.inr (List.mem_append_right _ changed))

theorem stationAt_address {s : State} {a : Byte} {i : Fin 48} (h : stationAt s a = some i) :
    ∃ x, s.sline.stations.get i = some x ∧ x.address = a := by
  have found := List.find?_some h
  simpa [Option.any_eq_true] using found

/-! ### RACK STANDBY NOW (R97) -/

theorem reportRack_calm (r : Fin 4) (x : Rack) (s : State) : Calm s (reportRack r x s) := queueReport_calm ..

theorem changeRack_calm (r : Fin 4) (cause : RackFaultCause) (x : Rack) (s : State) : Calm s (changeRack r cause x s) := by
  unfold changeRack
  extract_lets old y u
  have set : Calm s u := ⟨rfl, rfl⟩
  exact .ite (set.trans ((appendLog_calm ..).trans (reportRack_calm ..)))
    (.ite (set.trans ((appendLog_calm ..).trans (reportRack_calm ..))) set)

/-- R97: a rack turned off, with no job to play: the rack alone is changed, and its station is reported. -/
theorem standbyNow_eq {r : Fin 4} {s : State} (h : NoneWaiting s) :
    standbyNow r s = noteRack r (changeRack r .cleared
      { s.ann.racks.get r with commanded := .standby, power := .standby } s) := by
  refine NoneWaiting.arbiter (h.of_jobs ?_)
  show (noteRack r _).ann.jobs = _
  rw [noteRack, noteOwner_ann, changeRack_off _ _ _ (by simp)]

theorem rackStandby_free (src : Byte) {r : Fin 4} {s : State} (fitted : (s.ann.racks.get r).address ≠ 0)
    (quiescent : s.regime.state = .quiescent) (online : stationLost s (s.ann.racks.get r).address = false)
    (free : rackHeld s r = false) :
    rackStandby src [BitVec.ofNat 8 r.val] s = reply src 7 .done 0 [] (standbyNow r s) := by
  have here : ¬ s.regime.state ≠ .quiescent := by simpa using quiescent
  have idle : ¬ (stationLost s (s.ann.racks.get r).address = true ∨ rackHeld s r = true) := by simp [online, free]
  simp only [rackStandby, param_fin (by decide : 4 ≤ 256) r, if_neg fitted, if_neg here, if_neg idle]
  rfl

/-- Settles O40. -/
theorem rackStandbyTurnsRackOff : Obligations.RackStandbyTurnsRackOff := by
  intro h key r s x o quiescent fitted online free waiting
  have acts : rackStandby h.src [BitVec.ofNat 8 r.val] (frameTaken s) =
      reply h.src 7 .done 0 [] (standbyNow r (frameTaken s)) :=
    rackStandby_free h.src (s := frameTaken s) fitted quiescent online free
  have eq := standbyNow_eq (r := r) (s := frameTaken s) waiting
  set u := changeRack r .cleared { x with commanded := .standby, power := .standby } (frameTaken s) with changed
  have turnedOff : u.ann = { s.ann with
      racks := s.ann.racks.set r { x with commanded := .standby, power := .standby } } :=
    changeRack_off r .cleared (frameTaken s) (by simp)
  have ann : (rackStandby h.src [BitVec.ofNat 8 r.val] (frameTaken s)).ann =
      { s.ann with racks := s.ann.racks.set r { x with commanded := .standby, power := .standby } } := by
    rw [acts, (reply_within [] h.src 7 .done 0 [] _).ann (by simp), eq]
    exact (noteOwner_ann _ u).trans turnedOff
  have within := rackStandby_within h.src [BitVec.ofNat 8 r.val] (frameTaken s)
  refine ⟨_, manage_handled o subRackStandbyNow _ rfl _, ?_, fun q other => ?_, ?_, ?_, fun i at' => ?_,
    (((takenFrame_within s).mono (by simp)).trans (within.mono
      (cs := [.receivers, .ann, .allClear, .early, .lines]) (by simp [annBlocks, completionBlocks]))).finished⟩
  · rw [finish_ann, ann, Tbl.get_set_self]
  · rw [finish_ann, ann, Tbl.get_set_ne _ _ other.symm]
  · rw [finish_ann, ann]
  · rw [finish_ann, ann]
  · obtain ⟨st, inUse, address⟩ := stationAt_address at'
    refine finish_joins s ?_
    have owners : (rackStandby h.src [BitVec.ofNat 8 r.val] (frameTaken s)).notes.owners = [x.address] := by
      rw [acts, (reply_calm h.src 7 .done 0 [] _).owners, eq, noteRack, noteOwner_notes,
        (changeRack_calm r .cleared _ (frameTaken s)).owners]
      show [] ++ [(u.ann.racks.get r).address] = _
      rw [turnedOff, Tbl.get_set_self]
      rfl
    have stations : (rackStandby h.src [BitVec.ofNat 8 r.val] (frameTaken s)).sline.stations = s.sline.stations :=
      within.stations (by simp [annBlocks, completionBlocks])
    rw [stationNoted, owners, stations, inUse]
    simp [address, x]

/-- What an operation of the Scheduler may change is among the parts an event may. -/
theorem Within.scheduler {cs : List Block} {s t : State} (w : Within annBlocks s t)
    (m : Block.ann ∈ cs ∧ Block.allClear ∈ cs := by decide) : Within cs s t :=
  w.mono (by simpa [annBlocks, completionBlocks] using m)

/-- R150: an event of the Scheduler's timers. -/
theorem scheduler_event {f : State → State} {s : State} (powered : s.powered = true) (w : ∀ u, Within annBlocks u (f u)) :
    effect f s = .next (finish s (f (beginEvent s))) ∧
      Within [.ann, .allClear, .early, .lines] s (finish s (f (beginEvent s))) :=
  ⟨effect_on f powered, ((beginEvent_within _ s).trans (w _).scheduler).finished⟩

/-- An index that alone passes a test is the first that does. -/
theorem first_of_only {n : Nat} {p : Fin n → Bool} {i : Fin n} (h : p i = true) (only : ∀ j, j ≠ i → p j = false) :
    first? p = some i := by
  cases found : first? p with
  | none =>
    have none' := List.find?_eq_none.mp found i (List.mem_finRange i)
    exact absurd h none'
  | some j =>
    by_contra other
    have passes : p j = true := List.find?_some found
    rw [only j fun same => other (by rw [same])] at passes
    cases passes

theorem liveSlot_of_one {s : State} {j : Fin 16} {x : Job} (held : s.ann.jobs.get j = some x) (live : x.cls = .liveBrigade)
    (others : ∀ i, i ≠ j → s.ann.jobs.get i = none) : liveSlot s = some j :=
  first_of_only (by simp [held, live]) fun i other => by simp [others i other]

/-! ### The end of a play (R107, R108) -/

/-- R107: a channel that goes to IDLE. -/
def idled (c : Channel) : Channel := { c with state := .idle, job := none, held := 0, warm := none, play := none, marks := 0 }

theorem idleChannel_ann (k : Fin 2) (s : State) : (idleChannel k s).ann =
    { s.ann with channels := s.ann.channels.set k (idled (s.ann.channels.get k)) } := rfl

theorem recharged_ann (rs : List (Fin 4)) (s : State) :
    (rs.foldl (fun s r => setRack r (fullCountdown (s.ann.racks.get r)) s) s).ann = { s.ann with
      racks := (rs.foldl (fun s r => setRack r (fullCountdown (s.ann.racks.get r)) s) s).ann.racks } := by
  induction rs generalizing s with
  | nil => rfl
  | cons r rs ih => rw [List.foldl_cons, ih]; rfl

theorem endPlay_ann (k : Fin 2) (cause : EndCause) (s : State) : (endPlay k cause s).ann = { s.ann with
    racks := (endPlay k cause s).ann.racks
    channels := s.ann.channels.set k (idled (s.ann.channels.get k)) } := by
  have charged := recharged_ann (involved s (s.ann.channels.get k).held) s
  unfold endPlay
  extract_lets held u
  have shape : u.ann = { s.ann with racks := u.ann.racks } := charged
  rw [idleChannel_ann, reportChannel_ann, shape]

theorem dropJob_eq {j : Fin 16} {s : State} (owed : s.ann.owed = []) : dropJob j s = setJob j none s := by
  have owed' : (setJob j none s).ann.owed = [] := owed
  rw [dropJob, fillOwed, owed']
  rfl

/-- The channels after a job has given up the one it holds. -/
def freed (channels : Tbl Channel 2) : Option (Fin 2) → Tbl Channel 2
  | none => channels
  | some k => channels.set k (idled (channels.get k))

theorem freed_get {channels : Tbl Channel 2} {o : Option (Fin 2)} {k : Fin 2} (h : o = some k) :
    ((freed channels o).get k).state = .idle ∧ ((freed channels o).get k).job = none := by
  rw [h, freed, Tbl.get_set_self]
  exact ⟨rfl, rfl⟩

/-- R107, R111: a job removed with no job owed a place: its channel goes to IDLE. -/
theorem removeJob_ann {j : Fin 16} {x : Job} {s : State} (held : s.ann.jobs.get j = some x) (owed : s.ann.owed = []) :
    (removeJob j s).ann = { s.ann with
      racks := (removeJob j s).ann.racks
      jobs := s.ann.jobs.set j none
      channels := freed s.ann.channels x.channel } := by
  unfold removeJob
  rw [held, Option.bind_some]
  cases x.channel with
  | none => simp only [dropJob_eq owed]; rfl
  | some k =>
    simp only
    split
    · have ended := endPlay_ann k .removed s
      have owed' : (endPlay k .removed s).ann.owed = [] := by rw [ended]; exact owed
      rw [dropJob_eq owed']
      exact congrArg (fun a : Announce => { a with jobs := a.jobs.set j none }) ended
    · have owed' : (idleChannel k s).ann.owed = [] := owed
      rw [dropJob_eq owed']
      rfl

section OneJob

variable {j : Fin 16} {x : Job} {s : State}

theorem removeJob_empty (held : s.ann.jobs.get j = some x) (others : ∀ i, i ≠ j → s.ann.jobs.get i = none)
    (owed : s.ann.owed = []) (i : Fin 16) : (removeJob j s).ann.jobs.get i = none := by
  rw [removeJob_ann held owed, Tbl.get_set]
  split
  · rfl
  · next other => exact others i (Ne.symm other)

/-! ### A live talk ends (R111) -/

/-- R111: the live talk limit stopped. -/
def stopLimit (s : State) : State := { s with ann := { s.ann with liveLimit := none } }

theorem endLive_eq (held : s.ann.jobs.get j = some x) (live : x.cls = .liveBrigade)
    (others : ∀ i, i ≠ j → s.ann.jobs.get i = none) (owed : s.ann.owed = []) :
    endLive s = removeJob j (stopLimit s) := by
  have slot := liveSlot_of_one held live others
  have empty := removeJob_empty (s := stopLimit s) held others owed
  simp only [endLive, slot]
  exact (noneWaiting_of_empty empty).arbiter

/-- R111: what the end of the one live talk leaves. -/
theorem endLive_leaves (held : s.ann.jobs.get j = some x) (live : x.cls = .liveBrigade)
    (others : ∀ i, i ≠ j → s.ann.jobs.get i = none) (owed : s.ann.owed = []) :
    (∀ i, (endLive s).ann.jobs.get i = none) ∧ (endLive s).ann.liveLimit = none ∧
      ∀ k, x.channel = some k → ((endLive s).ann.channels.get k).state = .idle ∧
        ((endLive s).ann.channels.get k).job = none := by
  have ann := removeJob_ann (s := stopLimit s) held owed
  rw [endLive_eq held live others owed]
  refine ⟨removeJob_empty (s := stopLimit s) held others owed, ?_, fun k channel => ?_⟩
  · rw [ann]
    rfl
  · rw [ann]
    exact freed_get channel

/-- Settles O29. -/
theorem liveTalkEnds : Obligations.LiveTalkEnds := by
  intro j x s held live others owed
  refine ⟨fun h tail o => ?command, fun powered => ?limit⟩
  case command =>
    have slot := liveSlot_of_one (s := frameTaken s) held live others
    have acts : liveTalkEnd (frameTaken s) = (.accepted, endLive (frameTaken s)) := if_pos (by rw [slot]; rfl)
    set u := ownerCommand h.src .liveTalkEnd liveTalkEnd (frameTaken s) with done
    have ann : u.ann = (endLive (frameTaken s)).ann := by
      rw [done, ownerCommand, acts]
      exact (answerCommand_within [] _ _ _ _ _).ann (by simp)
    obtain ⟨jobs, limit, channel⟩ := endLive_leaves (s := frameTaken s) held live others owed
    refine ⟨_, brigade_carriedOut o _ _, ?_, ?_, ?_, ?_⟩
    · rw [finish_ann, ann]
      exact jobs
    · rw [finish_ann, ann]
      exact limit
    · rw [finish_ann, ann]
      exact channel
    · exact (((takenFrame_within s).mono (by simp)).trans
        (ownerCommand_within _ h.src .liveTalkEnd liveTalkEnd_within (frameTaken s)).scheduler).finished
  case limit =>
    obtain ⟨jobs, limit, channel⟩ := endLive_leaves (s := beginEvent s) held live others owed
    obtain ⟨step, within⟩ := scheduler_event powered endLive_within
    refine ⟨_, step, ?_, ?_, ?_, within⟩
    · rw [finish_ann]
      exact jobs
    · rw [finish_ann]
      exact limit
    · rw [finish_ann]
      exact channel

/-! ### A page ends (R114) -/

theorem setStatus_ann {e : Fin 16} {n : Tenant} {s : State} (inUse : s.ann.tenants.get e = some n) (st : PageStatus) :
    (setStatus e st s).ann =
      { s.ann with tenants := s.ann.tenants.set e (some { n with status := st }) } := by
  have changed : s.ann.tenants.upd e (·.map fun t => { t with status := st }) =
      s.ann.tenants.set e (some { n with status := st }) := by
    rw [Tbl.upd, inUse]
    rfl
  unfold setStatus
  extract_lets _ u
  have ann : u.ann = { s.ann with tenants := s.ann.tenants.set e (some { n with status := st }) } :=
    congrArg (fun t => { s.ann with tenants := t }) changed
  rw [inUse]
  simp only
  split
  · exact ann
  · exact (noteOwner_ann _ u).trans ann

/-- R114: what the end of the one page leaves. -/
theorem removePage_leaves {e : Fin 16} {n : Tenant} (held : s.ann.jobs.get j = some x) (source : x.source = .liveTenant e)
    (inUse : s.ann.tenants.get e = some n) (others : ∀ i, i ≠ j → s.ann.jobs.get i = none) (owed : s.ann.owed = []) :
    (∀ i, (removePage j .ended s).ann.jobs.get i = none) ∧
      (removePage j .ended s).ann.tenants = s.ann.tenants.set e (some { n with status := .ended }) := by
  have removed := removeJob_ann held owed
  have inUse' : (removeJob j s).ann.tenants.get e = some n := by rw [removed]; exact inUse
  have ended : (removePage j .ended s).ann = (setStatus e .ended (removeJob j s)).ann := by
    simp only [removePage, held, source]
    rfl
  rw [ended, setStatus_ann inUse']
  refine ⟨removeJob_empty held others owed, ?_⟩
  rw [removed]

/-- Settles O58. -/
theorem pagesEnd : Obligations.PagesEnd := by
  intro j x e n s powered held tenant source inUse others owed
  obtain ⟨jobs, tenants⟩ := removePage_leaves (s := beginEvent s) held source inUse others owed
  refine ⟨fun limit => ?limit, fun hold => ?hold⟩
  case limit =>
    have acts : pageEnd j (beginEvent s) = removePage j .ended (beginEvent s) :=
      (if_pos (by simp [held, tenant, limit])).trans (noneWaiting_of_empty jobs).arbiter
    obtain ⟨step, within⟩ := scheduler_event powered (pageEnd_within j)
    refine ⟨_, step, ?_, ?_, within⟩
    · rw [finish_ann, acts]
      exact jobs
    · rw [finish_ann, acts]
      exact tenants
  case hold =>
    set u := appendLog .pageExpired (.jobSlot j) .zero (removePage j .ended (beginEvent s)) with logged
    have ann : u.ann = (removePage j .ended (beginEvent s)).ann := appendLog_ann ..
    have acts : holdEnd j (beginEvent s) = u :=
      (if_pos (by simp [held, tenant, hold])).trans (noneWaiting_of_empty (by rw [ann]; exact jobs)).arbiter
    obtain ⟨step, within⟩ := scheduler_event powered (holdEnd_within j)
    refine ⟨_, step, ?_, ?_, within⟩
    · rw [finish_ann, acts, ann]
      exact jobs
    · rw [finish_ann, acts, ann]
      exact tenants

/-! ### The play and rest timers (R108, R109) -/

/-- R108: the job whose play has ended, with repeats left and a rest to take. -/
def rested (s : State) (x : Job) : Job := { x with
  state := .resting, channel := none, lastEnd := some (now s), rest := some (restTicks s x.cls)
  repeats := lessOne x.repeats }

theorem lessOne_left {r : Repeats} (some' : r ≠ .times 0) (more : r ≠ .times 1) : lessOne r ≠ .times 0 := by
  cases r with
  | continuous => exact fun h => nomatch h
  | times n =>
    simp only [lessOne, ne_eq, Repeats.times.injEq] at *
    omega

theorem afterPlay_timeout (held : s.ann.jobs.get j = some x) (left : lessOne x.repeats ≠ .times 0)
    (rests : restTicks s x.cls ≠ 0) : afterPlay .timeout j s = setJob j (some (rested s x)) s := by
  simp only [afterPlay, held, if_neg left, if_neg rests]
  rfl

theorem Appends.stamp {l m : EventLog} (h : Appends l m) : m.stamp = l.stamp := by
  induction h with
  | refl => rfl
  | append k subject d _ ih => simp only [appendRecord, ih]

theorem Keeps.now {bs : List Block} {s t : State} (k : Keeps bs s t) : Machine.now t = Machine.now s := k.log.stamp

theorem restTicks_congr {s t : State} (params : t.params = s.params) : restTicks t = restTicks s := by
  funext c
  cases c <;> simp [restTicks, params]

/-- R108: what the play timer leaves of a channel and of the one job in the table. -/
theorem playEnd_ann {k : Fin 2} (playing : (s.ann.channels.get k).state = .playing)
    (timed : (s.ann.channels.get k).play.isSome = true) (job : (s.ann.channels.get k).job = some j)
    (held : s.ann.jobs.get j = some x) (others : ∀ i, i ≠ j → s.ann.jobs.get i = none)
    (left : lessOne x.repeats ≠ .times 0) (rests : restTicks s x.cls ≠ 0) :
    (playEnd k s).ann.jobs = s.ann.jobs.set j (some (rested s x)) ∧
      (playEnd k s).ann.channels.get k = idled (s.ann.channels.get k) := by
  set u := endPlay k .timeout s with played
  have w : Within annBlocks s u := endPlay_within k .timeout s
  have ann := endPlay_ann k .timeout s
  have jobs : u.ann.jobs = s.ann.jobs := by rw [played, ann]
  have rest : restTicks u = restTicks s := restTicks_congr (w.params (by simp [annBlocks, completionBlocks]))
  have same : rested u x = rested s x := by simp only [rested, rest, w.now]
  have ended : finishPlay k .timeout s = setJob j (some (rested s x)) u := by
    have after := afterPlay_timeout (s := u) (by rw [jobs]; exact held) left (by rw [rest]; exact rests)
    rw [same] at after
    simp only [finishPlay, job]
    exact after
  have quiet : NoneWaiting (setJob j (some (rested s x)) u) := by
    refine noneWaiting_of_one (j := j) (x := rested s x) ?_ (fun i other => ?_) (fun h => nomatch h)
    · rw [setJob_ann_jobs, Tbl.get_set_self]
    · rw [setJob_ann_jobs, Tbl.get_set_ne _ _ other.symm, jobs]
      exact others i other
  have acts : playEnd k s = setJob j (some (rested s x)) u := by
    refine (if_pos ⟨playing, timed⟩).trans ?_
    rw [ended]
    exact quiet.arbiter
  rw [acts]
  refine ⟨by rw [setJob_ann_jobs, jobs], ?_⟩
  rw [setJob_ann_channels, played, ann, Tbl.get_set_self]

/-- R109: a job that no channel can play rests in the table if it is of a class that waits. -/
theorem one_stays {y : Job} (held : s.ann.jobs.get j = some y) (others : ∀ i, i ≠ j → s.ann.jobs.get i = none)
    (unserved : y.target &&& served s = 0) (stays : y.cls ≠ .allClear ∧ y.cls ≠ .test) : arbiter s = s := by
  obtain ⟨notAllClear, notTest⟩ := stays
  refine arbiter_rests (arbiterStep_none (fun k i => ?_) fun i => ?_)
  · by_cases same : i = j
    · simp [eligible, same, held, openFloors, unserved]
    · simp [eligible, others i same]
  · by_cases same : i = j
    · simp [unplayable, same, held, notAllClear, notTest]
    · simp [unplayable, others i same]

theorem restEnd_stays (held : s.ann.jobs.get j = some x) (resting : x.state = .resting)
    (others : ∀ i, i ≠ j → s.ann.jobs.get i = none) (unserved : x.target &&& served s = 0)
    (stays : x.cls ≠ .allClear ∧ x.cls ≠ .test) :
    restEnd j s = setJob j (some { x with state := .waiting, rest := none }) s := by
  simp only [restEnd, held, if_pos resting]
  refine one_stays (j := j) (y := { x with state := .waiting, rest := none }) ?_ (fun i other => ?_) unserved stays
  · rw [setJob_ann_jobs, Tbl.get_set_self]
  · rw [setJob_ann_jobs, Tbl.get_set_ne _ _ other.symm]
    exact others i other

/-- Settles O57. -/
theorem playAndRestExpire : Obligations.PlayAndRestExpire := by
  refine ⟨fun k j x s powered playing timed job held others some' more rests => ?play,
    fun j x s powered held resting others standing unserved => ?rest⟩
  case play =>
    obtain ⟨jobs, channel⟩ := playEnd_ann (s := beginEvent s) playing timed job held others (lessOne_left some' more) rests
    obtain ⟨step, within⟩ := scheduler_event powered (playEnd_within k)
    refine ⟨_, step, ?_, fun i other => ?_, ?_, ?_, ?_, within⟩
    · rw [finish_ann, jobs, Tbl.get_set_self]
      cases repeats : x.repeats <;> simp only [rested, repeats, lessOne] <;> rfl
    · rw [finish_ann, jobs, Tbl.get_set_ne _ _ other.symm]
      exact others i other
    all_goals
      rw [finish_ann, channel]
      rfl
  case rest =>
    have stays : x.cls ≠ .allClear ∧ x.cls ≠ .test := by
      rcases standing with cls | cls <;> simp [cls]
    have acts := restEnd_stays (s := beginEvent s) held resting others unserved stays
    obtain ⟨step, within⟩ := scheduler_event powered (restEnd_within j)
    refine ⟨_, step, ?_, ?_, within⟩
    · rw [finish_ann, acts]
      rfl
    · rw [finish_ann, acts]
      rfl

end OneJob

theorem set_get_self {α : Type} {n : Nat} (t : Tbl α n) (i : Fin n) : t.set i (t.get i) = t := by
  refine Tbl.ext_get fun j => ?_
  rw [Tbl.get_set]
  split
  · next same => rw [same]
  · rfl

theorem set_of_get {α : Type} {n : Nat} {t : Tbl α n} {i : Fin n} {x : α} (h : t.get i = x) : t.set i x = t := by
  rw [← h, set_get_self]

theorem set_set {α : Type} {n : Nat} (t : Tbl α n) (i : Fin n) (x y : α) : (t.set i x).set i y = t.set i y := by
  refine Tbl.ext_get fun j => ?_
  simp only [Tbl.get_set]
  split <;> rfl

/-! ### A channel begins to play (R106, R107) -/

/-- R106: a channel that begins to play a job. -/
def played (c : Channel) (x : Job) : Channel := { c with
  state := .playing, number := c.number + 1, warm := none, marks := 0
  play := match x.source with
    | .message _ => some (ticks 180)
    | _ => none }

/-- R113: a page that begins to play. -/
def granted (x : Job) : Job := if x.cls = .tenant then { x with hold := none, pageLimit := some (ticks 120) } else x

theorem setSourceStatus_ann (src : Source) (st : PageStatus) (s : State) :
    (setSourceStatus src st s).ann = { s.ann with tenants := (setSourceStatus src st s).ann.tenants } := by
  cases src with
  | liveTenant e =>
    show (setStatus e st s).ann = { s.ann with tenants := (setStatus e st s).ann.tenants }
    unfold setStatus
    split
    · split <;> rfl
    · rfl
  | liveBrigade => rfl
  | message m => rfl

theorem noteRacks_ann (rs : List (Fin 4)) (s : State) : (rs.foldl (fun s r => noteRack r s) s).ann = s.ann :=
  foldl_keeps State.ann (f := fun s r => noteRack r s) (fun s _ => noteOwner_ann _ s) rs s

section Channels

variable {k : Fin 2} {j : Fin 16} {x : Job} {s : State}

theorem beginPlay_ann (job : (s.ann.channels.get k).job = some j) (held : s.ann.jobs.get j = some x) :
    (beginPlay k s).ann = { s.ann with
      jobs := s.ann.jobs.set j (some (granted x))
      channels := s.ann.channels.set k (played (s.ann.channels.get k) x)
      tenants := (beginPlay k s).ann.tenants } := by
  have channel : channelJob s k = some x := by rw [channelJob, job]; exact held
  set u := setChannel k (played (s.ann.channels.get k) x) s with marked
  set v := if x.cls = .tenant then
    setSourceStatus x.source .granted (setJob j (some { x with hold := none, pageLimit := some (ticks 120) }) u)
    else u with begun
  have plays : beginPlay k s = reportChannel k none
      ((involved v (s.ann.channels.get k).held).foldl (fun s r => noteRack r s) v) := by
    simp only [beginPlay, job, channel, begun, marked, played]
    cases x.source <;> rfl
  have ann : (beginPlay k s).ann = v.ann := by rw [plays, reportChannel_ann, noteRacks_ann]
  have shape : v.ann = { s.ann with
      jobs := s.ann.jobs.set j (some (granted x))
      channels := s.ann.channels.set k (played (s.ann.channels.get k) x)
      tenants := v.ann.tenants } := by
    by_cases tenant : x.cls = .tenant
    · rw [begun, if_pos tenant, setSourceStatus_ann, granted, if_pos tenant]
      rfl
    · rw [begun, if_neg tenant, granted, if_neg tenant, set_of_get held]
      rfl
  rw [ann]
  exact shape

theorem wakeRack_ann (r : Fin 4) (s : State) :
    (wakeRack r s).ann = { s.ann with racks := (wakeRack r s).ann.racks } := by
  unfold wakeRack
  extract_lets
  split <;> rfl

theorem wakeRacks_ann (rs : List (Fin 4)) (s : State) :
    (rs.foldl (fun s r => wakeRack r s) s).ann =
      { s.ann with racks := (rs.foldl (fun s r => wakeRack r s) s).ann.racks } := by
  induction rs generalizing s with
  | nil => rfl
  | cons r rs ih => rw [List.foldl_cons, ih, wakeRack_ann]

/-- R105, R106: what the start of a channel leaves of the table and of the channels, for a job that is no page. -/
theorem startChannel_ann (job : (s.ann.channels.get k).job = some j) (held : s.ann.jobs.get j = some x)
    (noPage : x.cls ≠ .tenant) : ∃ c : Channel,
    c.state = (if allOn s (s.ann.channels.get k).held then ChannelState.playing else .warming) ∧
    c.job = some j ∧ c.held = (s.ann.channels.get k).held ∧
    (startChannel k s).ann = { s.ann with
      racks := (startChannel k s).ann.racks
      channels := s.ann.channels.set k c
      tenants := (startChannel k s).ann.tenants } := by
  by_cases on : allOn s (s.ann.channels.get k).held = true
  · have begins : startChannel k s = beginPlay k s := if_pos on
    refine ⟨played (s.ann.channels.get k) x, by rw [if_pos on]; rfl, job, rfl, ?_⟩
    have ann := beginPlay_ann job held
    rw [granted, if_neg noPage, set_of_get held] at ann
    rw [begins]
    conv_lhs => rw [ann]
    rw [show (beginPlay k s).ann.racks = s.ann.racks by rw [ann]]
  · refine ⟨{ s.ann.channels.get k with state := .warming, warm := some (ticks s.params.warmUp) },
      by rw [if_neg on], job, rfl, ?_⟩
    set u := (involved s (s.ann.channels.get k).held).foldl (fun s r => wakeRack r s) s with woken
    have warms : ∃ w, startChannel k s = setChannel k { s.ann.channels.get k with state := .warming, warm := w } u ∧
        w = some (ticks s.params.warmUp) := by
      refine ⟨some (ticks u.params.warmUp), if_neg on, ?_⟩
      rw [(Within.foldl (bs := annBlocks) (fun s r => wakeRack_within r s) _ s).params
        (by simp [annBlocks, completionBlocks])]
    obtain ⟨w, warms, rfl⟩ := warms
    have ann : u.ann = { s.ann with racks := u.ann.racks } := wakeRacks_ann _ s
    rw [warms]
    have tenants : u.ann.tenants = s.ann.tenants := by rw [ann]
    refine (congrArg (fun a : Announce => { a with channels := a.channels.set k { s.ann.channels.get k with
      state := .warming, warm := some (ticks s.params.warmUp) } }) ann).trans ?_
    exact congrArg (fun t => { s.ann with
      racks := u.ann.racks
      channels := s.ann.channels.set k { s.ann.channels.get k with
        state := .warming, warm := some (ticks s.params.warmUp) }
      tenants := t }) tenants.symm

/-! ### Floors taken from a channel (R104, R107) -/

theorem shrink_idle {cause : EndCause} {floors : FloorSet} (idle : (s.ann.channels.get k).state = .idle) :
    shrink cause k floors s = s := if_pos (.inl idle)

theorem shrink_apart {cause : EndCause} {floors : FloorSet} (apart : (s.ann.channels.get k).held &&& floors = 0) :
    shrink cause k floors s = s := if_pos (.inr apart)

theorem checkComplete_none (none' : messagePlay s k = false) : checkComplete k s = s :=
  if_neg (by simp [allEnded, none'])

theorem messagePlay_noJob (noJob : (s.ann.channels.get k).job = none) : messagePlay s k = false := by
  simp [messagePlay, channelJob, noJob]

/-- R107: floors taken from a channel without a job: that channel and the countdowns alone are changed. -/
theorem shrink_noJob (cause : EndCause) (floors : FloorSet) (noJob : (s.ann.channels.get k).job = none) :
    ∃ c : Channel, c.job = none ∧ (shrink cause k floors s).ann = { s.ann with
      racks := (shrink cause k floors s).ann.racks
      channels := s.ann.channels.set k c } := by
  unfold shrink
  extract_lets c u
  split
  · exact ⟨c, noJob, by rw [set_get_self]⟩
  · have taken : (u.ann.channels.get k).job = none := by
      rw [setChannel_ann_channels, Tbl.get_set_self]
      exact noJob
    have idled' : ∀ v : State, v.ann = { u.ann with
        racks := v.ann.racks, channels := u.ann.channels.set k (idled (u.ann.channels.get k)) } →
        v.ann = { s.ann with
          racks := v.ann.racks, channels := s.ann.channels.set k (idled (u.ann.channels.get k)) } := by
      intro v shape
      have twice : u.ann.channels.set k (idled (u.ann.channels.get k)) =
          s.ann.channels.set k (idled (u.ann.channels.get k)) := set_set _ k _ _
      rw [twice] at shape
      exact shape
    split
    · refine ⟨idled (u.ann.channels.get k), rfl, ?_⟩
      split
      · have ends : finishPlay k cause u = endPlay k cause u := by simp only [finishPlay, taken]
        rw [ends]
        exact idled' _ (endPlay_ann k cause u)
      · have stops : stopWarm k u = idleChannel k u := by simp only [stopWarm, taken]
        rw [stops]
        exact idled' _ (idleChannel_ann k u)
    · rw [checkComplete_none (messagePlay_noJob taken)]
      exact ⟨{ c with held := c.held &&& ~~~ floors }, noJob, rfl⟩

/-! ### The racks a channel involves -/

theorem rackFloors_congr {t : State} (seq : t.seq = s.seq) (params : t.params = s.params) : rackFloors t = rackFloors s := by
  funext r
  simp [rackFloors, inUse, seq, params]

theorem involved_congr {t : State} (seq : t.seq = s.seq) (params : t.params = s.params) : involved t = involved s := by
  funext held
  simp [involved, rackFloors_congr seq params]

/-- R105: whether the racks of some floors are all ON. -/
theorem allOn_congr {t : State} (w : Within annBlocks s t) (powers : PowersStay s t) (held : FloorSet) :
    allOn t held = allOn s held := by
  have racks : involved t = involved s := involved_congr (w.seq (by simp [annBlocks, completionBlocks]))
    (w.params (by simp [annBlocks, completionBlocks]))
  have same : ∀ r, ((t.ann.racks.get r).power == .on) = ((s.ann.racks.get r).power == .on) := fun r => by
    rw [Bool.eq_iff_iff, beq_iff_eq, beq_iff_eq]
    exact (powers r).2.1
  simp only [allOn, racks, same]

end Channels

/-! ### LIVE TALK START (R110) -/

theorem freeSlot_empty {s : State} (empty : ∀ j, s.ann.jobs.get j = none) : freeSlot s = some 0 := by
  have head : List.finRange 16 = 0 :: (List.finRange 16).tail := by decide
  rw [freeSlot, first?, head, List.find?_cons, empty 0]
  rfl

theorem liveSlot_empty {s : State} (empty : ∀ j, s.ann.jobs.get j = none) : liveSlot s = none := by
  simp [liveSlot, first?, empty]

/-- R110: the job of a live talk. -/
def liveJob (floors : FloorSet) : Job :=
  { newJob .liveBrigade .liveBrigade floors (.times 1) none with state := .playing, channel := some 0 }

/-- R110: the live talk made, and CH0 given up by what it played. -/
def talkMade (live : FloorSet) (s : State) : State :=
  let t : State := setJob 0 (some (liveJob live)) s
  let t : State := { t with ann := { t.ann with liveLimit := some (ticks 300) } }
  shrink .cut 0 (t.ann.channels.get 0).held t

/-- R110: CH0 given the live talk, its floors taken from CH1. -/
def talkGiven (live : FloorSet) (s : State) : State :=
  let t := talkMade live s
  shrink .cut 1 live (setChannel 0 { t.ann.channels.get 0 with state := .warming, job := some 0, held := live } t)

theorem liveTalkStart_empty {floors : FloorSet} {s : State} (empty : ∀ j, s.ann.jobs.get j = none)
    (servedSome : floors &&& served s ≠ 0) :
    liveTalkStart floors s = (.accepted, arbiter (startChannel 0 (talkGiven (floors &&& served s) s))) := by
  have room : makeRoom s = s := by simp only [makeRoom, freeSlot_empty empty]
  simp only [liveTalkStart, liveSlot_empty empty, if_neg servedSome, room, freeSlot_empty empty]
  rfl

/-- R110: before CH0 starts, the table holds the live talk alone, and CH0 it and its floors. -/
theorem talkGiven_ann {live : FloorSet} {s : State} (noJob : ∀ k, (s.ann.channels.get k).job = none) :
    (talkGiven live s).ann.jobs = s.ann.jobs.set 0 (some (liveJob live)) ∧
      (talkGiven live s).ann.liveLimit = some (ticks 300) ∧
      ((talkGiven live s).ann.channels.get 0).job = some 0 ∧ ((talkGiven live s).ann.channels.get 0).held = live := by
  set made := talkMade live s with madeEq
  obtain ⟨c, -, first⟩ := shrink_noJob (k := 0) (s :=
    { setJob 0 (some (liveJob live)) s with ann :=
      { (setJob 0 (some (liveJob live)) s).ann with liveLimit := some (ticks 300) } }) .cut
    (s.ann.channels.get 0).held (noJob 0)
  have first' : made.ann = { s.ann with
      racks := made.ann.racks, jobs := s.ann.jobs.set 0 (some (liveJob live)), liveLimit := some (ticks 300)
      channels := s.ann.channels.set 0 c } := first
  set given := setChannel 0 { made.ann.channels.get 0 with state := .warming, job := some 0, held := live } made with
    givenEq
  have one : (given.ann.channels.get 1).job = none := by
    rw [givenEq, setChannel_ann_channels, Tbl.get_set_ne _ _ (by decide), first', Tbl.get_set_ne _ _ (by decide)]
    exact noJob 1
  obtain ⟨d, -, second⟩ := shrink_noJob (k := 1) .cut live one
  have second' : (talkGiven live s).ann = { given.ann with
      racks := (talkGiven live s).ann.racks, channels := given.ann.channels.set 1 d } := second
  rw [second']
  refine ⟨?_, ?_, ?_, ?_⟩
  · show made.ann.jobs = _
    rw [first']
  · show made.ann.liveLimit = _
    rw [first']
  all_goals rw [Tbl.get_set_ne _ _ (by decide), givenEq, setChannel_ann_channels, Tbl.get_set_self]

theorem talkGiven_powers (live : FloorSet) (s : State) :
    Within annBlocks s (talkGiven live s) ∧ PowersStay s (talkGiven live s) := by
  have job : Woken s { setJob 0 (some (liveJob live)) s with ann :=
      { (setJob 0 (some (liveJob live)) s).ann with liveLimit := some (ticks 300) } } := .of_racks rfl
  refine ⟨?_, Woken.powersStay (job.trans ((shrink_woken .cut 0 _ _).trans
    ((setChannel_woken 0 _ _).trans (shrink_woken .cut 1 live _))))⟩
  exact (setJob_within 0 _ s).trans ((onlyAnn_within _).trans ((shrink_within .cut 0 _ _).trans
    ((setChannel_within 0 _ _).trans (shrink_within .cut 1 live _))))

/-- R110: what LIVE TALK START leaves of a table without a job. -/
theorem liveTalkStart_leaves {floors : FloorSet} {s : State} (empty : ∀ j, s.ann.jobs.get j = none)
    (noJob : ∀ k, (s.ann.channels.get k).job = none) (servedSome : floors &&& served s ≠ 0) :
    let live := floors &&& served s
    let t := (liveTalkStart floors s).2
    t.ann.jobs = s.ann.jobs.set 0 (some (liveJob live)) ∧ (t.ann.channels.get 0).job = some 0 ∧
      (t.ann.channels.get 0).held = live ∧
      (t.ann.channels.get 0).state = (if allOn s live = true then ChannelState.playing else .warming) ∧
      t.ann.liveLimit = some (ticks 300) := by
  intro live t
  obtain ⟨jobs, limit, job, held⟩ := talkGiven_ann (live := live) noJob
  obtain ⟨within, powers⟩ := talkGiven_powers live s
  have given : (talkGiven live s).ann.jobs.get 0 = some (liveJob live) := by rw [jobs, Tbl.get_set_self]
  obtain ⟨c, state, job', held', ann⟩ := startChannel_ann job given (fun h => nomatch h)
  have jobs' : (startChannel 0 (talkGiven live s)).ann.jobs = s.ann.jobs.set 0 (some (liveJob live)) := by
    rw [ann]
    exact jobs
  have quiet : NoneWaiting (startChannel 0 (talkGiven live s)) := by
    refine noneWaiting_of_one (j := 0) (x := liveJob live) ?_ (fun i other => ?_) (fun h => nomatch h)
    · rw [jobs', Tbl.get_set_self]
    · rw [jobs', Tbl.get_set_ne _ _ other.symm]
      exact empty i
  have done : t = startChannel 0 (talkGiven live s) := by
    show (liveTalkStart floors s).2 = _
    rw [liveTalkStart_empty empty servedSome]
    exact quiet.arbiter
  rw [done]
  refine ⟨jobs', ?_, ?_, ?_, ?_⟩
  · rw [ann, Tbl.get_set_self, job']
  · rw [ann, Tbl.get_set_self, held', held]
  · rw [ann, Tbl.get_set_self, state, held, allOn_congr within powers]
  · rw [ann]
    exact limit

/-- Settles O28. -/
theorem liveTalkTakesChannelZero : Obligations.LiveTalkTakesChannelZero := by
  intro h floors tail s o empty noJob servedSome
  obtain ⟨jobs, job, held, state, limit⟩ := liveTalkStart_leaves (s := frameTaken s) empty noJob servedSome
  set u := ownerCommand h.src .liveTalkStart (liveTalkStart floors) (frameTaken s) with done
  have ann : u.ann = (liveTalkStart floors (frameTaken s)).2.ann :=
    (answerCommand_within [] _ _ _ _ _).ann (by simp)
  refine ⟨_, brigade_carriedOut o _ _, ?_, fun j other => ?_, ?_, ?_, ?_, ?_, ?_⟩
  · rw [finish_ann, ann, jobs, Tbl.get_set_self]
    rfl
  · rw [finish_ann, ann, jobs, Tbl.get_set_ne _ _ other.symm]
    exact empty j
  · rw [finish_ann, ann, job]
  · rw [finish_ann, ann, held]
    rfl
  · rw [finish_ann, ann, state]
    rfl
  · rw [finish_ann, ann, limit]
  · exact (((takenFrame_within s).mono (by simp)).trans
      (ownerCommand_within _ h.src .liveTalkStart (liveTalkStart_within floors) (frameTaken s)).scheduler).finished

/-! ### The test period (R102, R103) -/

theorem filter_only (j : Fin 16) : (List.finRange 16).filter (· == j) = [j] := by revert j; decide

theorem pick_only {s : State} {k : Fin 2} {j : Fin 16} (h : eligible s k j = true)
    (only : ∀ i, i ≠ j → eligible s k i = false) : pick s k = some j := by
  have one : (List.finRange 16).filter (eligible s k) = [j] := by
    rw [← filter_only j]
    refine List.filter_congr fun i _ => ?_
    by_cases same : i = j
    · simp [same, h]
    · simp [same, only i same]
  rw [pick, one]
  rfl

/-- R103: the test job. -/
def testJob (s : State) : Job := newJob .test (.message s.params.testMessage) (floorsInUse s) (.times 1) none

/-- R103: the test job given to CH0, before the channel starts. -/
def testGiven (s : State) : State :=
  let t := setJob 0 (some { testJob s with state := .playing, channel := some 0 }) (setJob 0 (some (testJob s)) s)
  setChannel 0 { t.ann.channels.get 0 with state := .warming, job := some 0, held := floorsInUse s &&& served s } t

section TestPeriod

variable {s : State} (empty : ∀ j, s.ann.jobs.get j = none)
  (idle : ∀ k, (s.ann.channels.get k).state = .idle ∧ (s.ann.channels.get k).job = none)
  (servedSome : floorsInUse s &&& served s ≠ 0)

include empty idle servedSome

/-- R104: the arbiter gives the test job, alone in the table, to CH0. -/
theorem testJob_step : arbiterStep (setJob 0 (some (testJob s)) s) = some (startChannel 0 (testGiven s)) := by
  set u := setJob 0 (some (testJob s)) s with made
  have held : u.ann.jobs.get 0 = some (testJob s) := by rw [made, setJob_ann_jobs, Tbl.get_set_self]
  have others : ∀ i, i ≠ 0 → u.ann.jobs.get i = none := fun i other => by
    rw [made, setJob_ann_jobs, Tbl.get_set_ne _ _ (Ne.symm other)]
    exact empty i
  have noJob : channelJob u 1 = none := by simp [channelJob, made, (idle 1).2]
  have floors : openFloors u 0 (testJob s) = floorsInUse s &&& served s := by
    have all : withheld u 0 (testJob s) = 0 := by
      rw [withheld, show other (0 : Fin 2) = 1 from rfl, noJob]
    rw [openFloors, all]
    exact BitVec.and_allOnes
  have playable : ∀ j, unplayable u j = false := by
    intro j
    by_cases same : j = 0
    · simp only [unplayable, same, held, Option.any_some]
      have some' : ((testJob s).target &&& served u == 0) = false := by
        rw [beq_eq_false_iff_ne]
        exact servedSome
      rw [some', Bool.and_false]
    · simp [unplayable, others j same]
  have takes : eligible u 0 0 = true := by
    simp only [eligible, held, Option.any_some, floors]
    rw [bne_iff_ne.mpr servedSome]
    rfl
  have alone : ∀ i, i ≠ 0 → eligible u 0 i = false := fun i other => by simp [eligible, others i other]
  have noLive : liveSlot u = none := by
    refine List.find?_eq_none.mpr fun i _ => ?_
    by_cases same : i = 0
    · rw [same, held]
      exact fun h => nomatch h
    · simp [others i same]
  have fills : fillChannel 0 u = some (give 0 0 u) := by
    rw [fillChannel, if_pos ⟨(idle 0).1, .inr noLive⟩, pick_only takes alone]
    rfl
  have gives : give 0 0 u = startChannel 0 (testGiven s) := by
    have other1 : ((testGiven s).ann.channels.get 1).state = .idle := by
      rw [testGiven]
      simp only [setChannel_ann_channels]
      rw [Tbl.get_set_ne _ _ (by decide)]
      exact (idle 1).1
    have apart : shrink .cut (other 0) (floorsInUse s &&& served s) (testGiven s) = testGiven s := shrink_idle other1
    simp only [give, held, floors]
    exact congrArg (startChannel 0) apart
  simp only [arbiterStep, removeUnplayable_none playable, fills, gives]

theorem testJob_given : ∃ c : Channel, c.job = some 0 ∧ c.held = floorsInUse s &&& served s ∧
    (arbiter (setJob 0 (some (testJob s)) s)).ann.jobs =
      s.ann.jobs.set 0 (some { testJob s with state := .playing, channel := some 0 }) ∧
    (arbiter (setJob 0 (some (testJob s)) s)).ann.channels.get 0 = c ∧
    (arbiter (setJob 0 (some (testJob s)) s)).ann.testTimer = s.ann.testTimer := by
  have channel : (testGiven s).ann.channels.get 0 = { s.ann.channels.get 0 with
      state := .warming, job := some 0, held := floorsInUse s &&& served s } := by
    rw [testGiven]
    simp only [setChannel_ann_channels]
    rw [Tbl.get_set_self]
    rfl
  have jobs : (testGiven s).ann.jobs = s.ann.jobs.set 0 (some { testJob s with state := .playing, channel := some 0 }) :=
    set_set s.ann.jobs 0 _ _
  have held : (testGiven s).ann.jobs.get 0 = some { testJob s with state := .playing, channel := some 0 } := by
    rw [jobs, Tbl.get_set_self]
  obtain ⟨c, -, job, kept, ann⟩ := startChannel_ann (k := 0) (by rw [channel]) held (fun h => nomatch h)
  have quiet : NoneWaiting (startChannel 0 (testGiven s)) := by
    refine noneWaiting_of_one (j := 0) (x := { testJob s with state := .playing, channel := some 0 })
      (by rw [ann]; exact held) (fun i other => ?_) (fun h => nomatch h)
    rw [ann]
    show (testGiven s).ann.jobs.get i = none
    rw [jobs, Tbl.get_set_ne _ _ (Ne.symm other)]
    exact empty i
  rw [arbiter_one_step (testJob_step empty idle servedSome) quiet.step]
  refine ⟨c, job, by rw [kept, channel], ?_, ?_, ?_⟩
  · rw [ann]
    exact jobs
  · rw [ann, Tbl.get_set_self]
  · rw [ann]
    rfl

end TestPeriod

/-- Settles O59. -/
theorem testPeriodMakesTestJob : Obligations.TestPeriodMakesTestJob := by
  intro s powered timer quiescent message empty idle servedSome
  set u := startTest (beginEvent s) with started
  obtain ⟨c, job, held, jobs, channel, testTimer⟩ := testJob_given (s := u) empty idle servedSome
  have running : ¬ (beginEvent s).ann.testTimer = none := by
    rw [beginEvent_ann]
    exact Option.isSome_iff_ne_none.mp timer
  have noTest : hasTest u = false := by
    have empty' : ∀ j, u.ann.jobs.get j = none := empty
    simp [hasTest, empty']
  have acts : testPeriodEnd (beginEvent s) = arbiter (setJob 0 (some (testJob u)) u) := by
    have slot : freeSlot u = some 0 := freeSlot_empty empty
    rw [testPeriodEnd, if_neg running]
    refine (if_pos ⟨quiescent, message, noTest⟩).trans ?_
    rw [← started, slot]
    rfl
  obtain ⟨step, within⟩ := scheduler_event powered testPeriodEnd_within
  refine ⟨_, step, ?_, fun j other => ?_, ?_, ?_, ?_, within⟩
  · rw [finish_ann, acts, jobs, Tbl.get_set_self]
    rfl
  · rw [finish_ann, acts, jobs, Tbl.get_set_ne _ _ other.symm]
    exact empty j
  · rw [finish_ann, acts, channel, job]
  · rw [finish_ann, acts, channel, held]
    rfl
  · rw [finish_ann, acts, testTimer]
    rfl

/-! ### No job comes to be (R104, R107) -/

/-- With no job owed a place, no slot of the table that is free comes to hold a job. -/
def NoNewJob (s t : State) : Prop :=
  s.ann.owed = [] → t.ann.owed = [] ∧ ∀ i, s.ann.jobs.get i = none → t.ann.jobs.get i = none

namespace NoNewJob

theorem refl (s : State) : NoNewJob s s := fun owed => ⟨owed, fun _ => id⟩

theorem trans {s t u : State} (h : NoNewJob s t) (k : NoNewJob t u) : NoNewJob s u := by
  intro owed
  obtain ⟨owed', free⟩ := h owed
  obtain ⟨owed'', free'⟩ := k owed'
  exact ⟨owed'', fun i none' => free' i (free i none')⟩

theorem of_same {s t : State} (owed : t.ann.owed = s.ann.owed) (jobs : t.ann.jobs = s.ann.jobs) : NoNewJob s t :=
  fun h => ⟨owed.trans h, fun i none' => by rw [jobs, none']⟩

theorem ite {s t u : State} {p : Prop} [Decidable p] (h : NoNewJob s t) (k : NoNewJob s u) :
    NoNewJob s (if p then t else u) := by
  split
  · exact h
  · exact k

theorem foldl {α : Type} {f : State → α → State} (h : ∀ s a, NoNewJob s (f s a)) (l : List α) (s : State) :
    NoNewJob s (l.foldl f s) := by
  induction l generalizing s with
  | nil => exact .refl s
  | cons a l ih => exact (h s a).trans (ih _)

theorem forEach {n : Nat} {f : Fin n → State → State} (h : ∀ i s, NoNewJob s (f i s)) (s : State) :
    NoNewJob s (forEach n f s) := .foldl (fun s i => h i s) _ s

/-- A job changed is one the table holds. -/
theorem setJob {j : Fin 16} {x : Job} {s : State} (held : s.ann.jobs.get j = some x) (y : Option Job) :
    NoNewJob s (setJob j y s) := by
  refine fun owed => ⟨owed, fun i none' => ?_⟩
  rw [setJob_ann_jobs, Tbl.get_set]
  split
  · next same =>
    rw [← same, held] at none'
    cases none'
  · exact none'

end NoNewJob

theorem dropJob_noNew (j : Fin 16) (s : State) : NoNewJob s (dropJob j s) := by
  intro owed
  rw [dropJob_eq owed]
  refine ⟨owed, fun i none' => ?_⟩
  rw [setJob_ann_jobs, Tbl.get_set]
  split
  · rfl
  · exact none'

theorem dropLive_noNew (j : Fin 16) (s : State) : NoNewJob s (dropLive j s) :=
  (NoNewJob.of_same (t := { s with ann := { s.ann with liveLimit := none } }) rfl rfl).trans (dropJob_noNew j _)

theorem setSourceStatus_noNew (src : Source) (st : PageStatus) (s : State) : NoNewJob s (setSourceStatus src st s) :=
  .of_same (by rw [setSourceStatus_ann]) (by rw [setSourceStatus_ann])

theorem returnQuiescent_ann (s : State) :
    (returnQuiescent s).ann = { s.ann with racks := s.ann.racks.map fullCountdown } := by
  have regime := (setRegime_keeps .quiescent .completion s).ann (by simp)
  exact congrArg (fun a : Announce => { a with racks := a.racks.map fullCountdown }) regime

theorem setAllClearDone_ann (s : State) :
    (setAllClearDone s).ann = { s.ann with racks := (setAllClearDone s).ann.racks } := by
  unfold setAllClearDone
  split
  · rfl
  · simp only
    split
    · rw [returnQuiescent_ann]
    · rfl

theorem setAllClearDone_noNew (s : State) : NoNewJob s (setAllClearDone s) :=
  .of_same (by rw [setAllClearDone_ann]) (by rw [setAllClearDone_ann])

theorem endPlay_noNew (k : Fin 2) (cause : EndCause) (s : State) : NoNewJob s (endPlay k cause s) :=
  .of_same (by rw [endPlay_ann]) (by rw [endPlay_ann])

theorem afterPlay_noNew (cause : EndCause) (j : Fin 16) (s : State) : NoNewJob s (afterPlay cause j s) := by
  unfold afterPlay
  split
  · exact .refl s
  · next x held =>
    have ended : ∀ (y : Job) (c : Prop) [Decidable c] (d : Prop) [Decidable d] (a b : Option Job), NoNewJob s
        (if c then (if y.cls = .allClear then setAllClearDone (dropJob j s) else dropJob j s)
          else if d then setJob j a s else setJob j b s) := fun y c _ d _ a b =>
      .ite (.ite ((dropJob_noNew j s).trans (setAllClearDone_noNew _)) (dropJob_noNew j s))
        (.ite (.setJob held a) (.setJob held b))
    cases cause with
    | complete => exact ended _ _ _ _ _
    | timeout => exact ended _ _ _ _ _
    | removed => exact dropJob_noNew j s
    | dropped =>
      cases x.cls with
      | liveBrigade => exact dropLive_noNew j s
      | tenant => exact (setSourceStatus_noNew _ _ s).trans (dropJob_noNew j _)
      | _ => exact .setJob held _
    | cut =>
      cases x.cls with
      | liveBrigade => exact dropLive_noNew j s
      | tenant => exact (NoNewJob.setJob held _).trans (setSourceStatus_noNew _ _ _)
      | _ => exact .setJob held _

theorem finishPlay_noNew (k : Fin 2) (cause : EndCause) (s : State) : NoNewJob s (finishPlay k cause s) := by
  unfold finishPlay
  split
  · exact endPlay_noNew k cause s
  · exact (endPlay_noNew k cause s).trans (afterPlay_noNew cause _ _)

theorem setChannel_noNew (k : Fin 2) (c : Channel) (s : State) : NoNewJob s (setChannel k c s) := .of_same rfl rfl

theorem stopWarm_noNew (k : Fin 2) (s : State) : NoNewJob s (stopWarm k s) := by
  have idle : NoNewJob s (idleChannel k s) := .of_same rfl rfl
  unfold stopWarm
  split
  · exact idle
  · next j _ =>
    split
    · exact idle
    · next x held =>
      exact .ite (idle.trans (dropLive_noNew j _)) (idle.trans (.setJob (s := idleChannel k s) held _))

theorem shrink_noNew (cause : EndCause) (k : Fin 2) (floors : FloorSet) (s : State) :
    NoNewJob s (shrink cause k floors s) :=
  have complete : ∀ u, NoNewJob u (checkComplete k u) := fun u => .ite (finishPlay_noNew k .complete u) (.refl u)
  .ite (.refl s) (.ite
    (.ite ((setChannel_noNew k _ s).trans (finishPlay_noNew k cause _))
      ((setChannel_noNew k _ s).trans (stopWarm_noNew k _)))
    ((setChannel_noNew k _ s).trans (complete _)))

theorem beginPlay_noNew (k : Fin 2) (s : State) : NoNewJob s (beginPlay k s) := by
  cases job : (s.ann.channels.get k).job with
  | none =>
    have still : beginPlay k s = s := by simp only [beginPlay, job]
    rw [still]
    exact .refl s
  | some j =>
    cases held : s.ann.jobs.get j with
    | none =>
      have still : beginPlay k s = s := by simp only [beginPlay, channelJob, job, Option.bind_some, held]
      rw [still]
      exact .refl s
    | some x =>
      have ann := beginPlay_ann job held
      exact (NoNewJob.setJob held (some (granted x))).trans (.of_same (by rw [ann]; rfl) (by rw [ann]; rfl))

theorem startChannel_noNew (k : Fin 2) (s : State) : NoNewJob s (startChannel k s) :=
  have wake : ∀ s r, NoNewJob s (wakeRack r s) := fun s r => .of_same (by rw [wakeRack_ann]) (by rw [wakeRack_ann])
  .ite (beginPlay_noNew k s) ((NoNewJob.foldl wake _ s).trans (setChannel_noNew k _ _))

theorem give_noNew (k : Fin 2) (j : Fin 16) (s : State) : NoNewJob s (give k j s) := by
  unfold give
  split
  · exact .refl s
  · next x held =>
    exact (NoNewJob.setJob held _).trans ((setChannel_noNew k _ _).trans
      ((shrink_noNew .cut (other k) _ _).trans (startChannel_noNew k _)))

theorem arbiterStep_noNew {s t : State} (h : arbiterStep s = some t) : NoNewJob s t := by
  have fills : ∀ {k : Fin 2} {u : State}, fillChannel k s = some u → NoNewJob s u := by
    intro k u filled
    unfold fillChannel at filled
    split at filled
    · obtain ⟨j, -, rfl⟩ := Option.map_eq_some_iff.mp filled
      exact give_noNew k j s
    · cases filled
  unfold arbiterStep at h
  split at h
  · next u hu =>
    cases h
    obtain ⟨j, -, rfl⟩ := Option.map_eq_some_iff.mp hu
    exact .ite ((dropJob_noNew j s).trans (setAllClearDone_noNew _)) (dropJob_noNew j s)
  · split at h
    · next u hu => cases h; exact fills hu
    · split at h
      · next u hu => cases h; exact fills hu
      · obtain ⟨k, -, rfl⟩ := Option.map_eq_some_iff.mp h
        exact stopWarm_noNew k s

theorem arbiter_noNew (s : State) : NoNewJob s (arbiter s) := by
  have runs : ∀ n s, NoNewJob s (arbiterRun n s) := by
    intro n
    induction n with
    | zero => exact .refl
    | succ n ih =>
      intro s
      unfold arbiterRun
      split
      · exact .refl s
      · next t h => exact (arbiterStep_noNew h).trans (ih t)
  exact runs 64 s

theorem changeRack_noNew (r : Fin 4) (cause : RackFaultCause) (x : Rack) (s : State) :
    NoNewJob s (changeRack r cause x s) := .of_same (by rw [changeRack_ann]) (by rw [changeRack_ann])

theorem failRack_noNew (s : State) (r : Fin 4) : NoNewJob s (failRack s r) :=
  .ite (.refl s) ((changeRack_noNew r _ _ s).trans (.forEach (fun k u => shrink_noNew .dropped k (rackFloors u r) u) _))

theorem warmUpEnd_noNew (k : Fin 2) (s : State) : NoNewJob s (warmUpEnd k s) :=
  .ite ((NoNewJob.foldl failRack_noNew _ s).trans
    ((NoNewJob.ite (beginPlay_noNew k _) (.refl _)).trans (arbiter_noNew _))) (.refl s)

/-! ### The racks and floors of a warm-up (R105) -/

theorem inSet_setOf (p : Fin 64 → Bool) (f : Fin 64) : inSet (Machine.setOf p) f = p f := by
  simp [inSet, Machine.setOf]

theorem inSet_and (a b : FloorSet) (f : Fin 64) : inSet (a &&& b) f = (inSet a f && inSet b f) := BitVec.getLsbD_and

theorem inSet_not (a : FloorSet) (f : Fin 64) : inSet (~~~ a) f = !inSet a f := by
  simp [inSet]

/-- Two floor sets with the same floors are one. -/
theorem floorSet_ext {a b : FloorSet} (h : ∀ f, inSet a f = inSet b f) : a = b :=
  BitVec.eq_of_getLsbD_eq fun i lt => h ⟨i, lt⟩

theorem floorSet_empty {a : FloorSet} : a = 0 ↔ ∀ f, inSet a f = false := by
  have zero : ∀ f, inSet 0 f = false := fun f => BitVec.getLsbD_zero
  exact ⟨fun h => by rw [h]; exact zero, fun h => floorSet_ext fun f => (h f).trans (zero f).symm⟩

theorem inSet_rackFloors (s : State) (r : Fin 4) (f : Fin 64) :
    inSet (rackFloors s r) f = (inUse s f && (s.seq.floors.get f).rack == r) := inSet_setOf _ f

theorem mem_involved {s : State} {held : FloorSet} {r : Fin 4} :
    r ∈ involved s held ↔ ∃ f, inSet held f = true ∧ inUse s f = true ∧ (s.seq.floors.get f).rack = r := by
  simp only [involved, List.mem_filter, List.mem_finRange, true_and, bne_iff_ne, ne_eq, floorSet_empty, inSet_and,
    inSet_rackFloors, not_forall, Bool.not_eq_false, Bool.and_eq_true, beq_iff_eq]
  exact exists_congr fun f => ⟨fun ⟨⟨used, rack⟩, inHeld⟩ => ⟨inHeld, used, rack⟩,
    fun ⟨inHeld, used, rack⟩ => ⟨⟨used, rack⟩, inHeld⟩⟩

/-- R105: the floors a warm-up keeps past one rack. -/
def keptFloors (s : State) (h : FloorSet) (r : Fin 4) : FloorSet :=
  if (s.ann.racks.get r).power = .on then h else h &&& ~~~ rackFloors s r

theorem inSet_keptFloors (s : State) (h : FloorSet) (rs : List (Fin 4)) (f : Fin 64) :
    inSet (rs.foldl (keptFloors s) h) f = true ↔
      inSet h f = true ∧ ∀ r ∈ rs, (s.ann.racks.get r).power = .on ∨ inSet (rackFloors s r) f = false := by
  induction rs generalizing h with
  | nil => simp
  | cons r rs ih =>
    rw [List.foldl_cons, ih, List.forall_mem_cons, ← and_assoc]
    refine and_congr_left fun _ => ?_
    unfold keptFloors
    split
    · next on => simp [on]
    · next off => simp [off, inSet_and, inSet_not]

theorem inSet_unready (s : State) (held : FloorSet) (f : Fin 64) : inSet (unready s held) f =
    (inSet held f && (inUse s f && (s.ann.racks.get (s.seq.floors.get f).rack).power != .on)) := by
  rw [unready, inSet_and, inSet_setOf]

/-- R105: what the failure of the racks that are not ON leaves of the held floors. -/
theorem keptFloors_involved (s : State) (held : FloorSet) :
    (involved s held).foldl (keptFloors s) held = held &&& ~~~ unready s held := by
  refine floorSet_ext fun f => ?_
  rw [Bool.eq_iff_iff, inSet_keptFloors, inSet_and, inSet_not, inSet_unready, Bool.and_eq_true]
  refine and_congr_right fun inHeld => ?_
  by_cases used : inUse s f = true
  · have ready : (!(inSet held f && (inUse s f && (s.ann.racks.get (s.seq.floors.get f).rack).power != .on))) = true ↔
        (s.ann.racks.get (s.seq.floors.get f).rack).power = .on := by simp [inHeld, used]
    rw [ready]
    constructor
    · intro all
      have here := all _ (mem_involved.mpr ⟨f, inHeld, used, rfl⟩)
      simpa [inSet_rackFloors, used] using here
    · intro on r _
      by_cases onRack : (s.seq.floors.get f).rack = r
      · exact .inl (onRack ▸ on)
      · simp [inSet_rackFloors, onRack]
  · simp [inSet_rackFloors, used]

/-! ### The one job of a warm-up that runs out (R105, R107) -/

section Warmed

variable (k : Fin 2) (j : Fin 16) (x : Job) (s : State)

/-- The channel still warming, with the floors `h` of those it held. -/
structure StillWarming (h : FloorSet) (t : State) : Prop where
  within : Within annBlocks s t
  powers : PowersStay s t
  jobs : t.ann.jobs = s.ann.jobs
  owed : t.ann.owed = []
  channels : t.ann.channels = s.ann.channels.set k { s.ann.channels.get k with held := h }

/-- The channel IDLE, its job given up. -/
structure GivenUp (t : State) : Prop where
  within : Within annBlocks s t
  powers : PowersStay s t
  jobs : t.ann.jobs = s.ann.jobs.set j (if x.cls = .liveBrigade then none else some (toWaiting x))
  owed : t.ann.owed = []
  limit : x.cls = .liveBrigade → t.ann.liveLimit = none
  channels : t.ann.channels = s.ann.channels.set k (idled (s.ann.channels.get k))

/-- R105: where the failure of some racks has left the channel, `h` being the floors that remain. -/
def Warmed (h : FloorSet) (t : State) : Prop :=
  (StillWarming k s h t ∧ (h ≠ 0 ∨ h = (s.ann.channels.get k).held)) ∨ (GivenUp k j x s t ∧ h = 0)

variable {k j x s} {h : FloorSet} {t : State} {r : Fin 4}

/-- A rack put in FAULT touches neither the jobs nor the channels. -/
theorem StillWarming.faulted (w : StillWarming k s h t) (off : (t.ann.racks.get r).power ≠ .on) :
    StillWarming k s h (changeRack r .warmUp { t.ann.racks.get r with power := .fault } t) := by
  have ann := changeRack_ann r .warmUp { t.ann.racks.get r with power := .fault } t
  exact ⟨w.within.trans (changeRack_within r _ _ t), w.powers.trans (faultRack_powersStay off), by rw [ann, w.jobs],
    by rw [ann, w.owed], by rw [ann, w.channels]⟩

theorem GivenUp.faulted (w : GivenUp k j x s t) (off : (t.ann.racks.get r).power ≠ .on) :
    GivenUp k j x s (changeRack r .warmUp { t.ann.racks.get r with power := .fault } t) := by
  have ann := changeRack_ann r .warmUp { t.ann.racks.get r with power := .fault } t
  exact ⟨w.within.trans (changeRack_within r _ _ t), w.powers.trans (faultRack_powersStay off), by rw [ann, w.jobs],
    by rw [ann, w.owed], fun live => by rw [ann]; exact w.limit live, by rw [ann, w.channels]⟩

theorem rackFloors_within (w : Within annBlocks s t) : rackFloors t = rackFloors s :=
  rackFloors_congr (w.seq (by simp [annBlocks, completionBlocks])) (w.params (by simp [annBlocks, completionBlocks]))

variable (warming : (s.ann.channels.get k).state = .warming) (job : (s.ann.channels.get k).job = some j)
  (held : s.ann.jobs.get j = some x)
  (others : ∀ l, l ≠ k → (s.ann.channels.get l).state = .idle ∧ (s.ann.channels.get l).job = none)

/-- Only the channel that warms has floors for a rack to take. -/
theorem Warmed.others_idle (others : ∀ l, l ≠ k → (s.ann.channels.get l).state = .idle ∧ (s.ann.channels.get l).job = none)
    (w : Warmed k j x s h t) {l : Fin 2} (other : l ≠ k) : (t.ann.channels.get l).state = .idle := by
  have same : t.ann.channels.get l = s.ann.channels.get l := by
    rcases w with ⟨still, -⟩ | ⟨given, -⟩
    · rw [still.channels, Tbl.get_set_ne _ _ other.symm]
    · rw [given.channels, Tbl.get_set_ne _ _ other.symm]
  rw [same]
  exact (others l other).1

include warming job held

/-- R107: floors taken from the channel as it warms: it keeps what remains, and gives its job up when nothing does. -/
theorem StillWarming.shrunk (w : StillWarming k s h t) (some' : h ≠ 0 ∨ h = (s.ann.channels.get k).held)
    (floors : FloorSet) : Warmed k j x s (h &&& ~~~ floors) (shrink .dropped k floors t) := by
  have channel : t.ann.channels.get k = { s.ann.channels.get k with held := h } := by rw [w.channels, Tbl.get_set_self]
  by_cases apart : h &&& floors = 0
  · have all : h &&& ~~~ floors = h := by
      refine floorSet_ext fun f => ?_
      have bit := floorSet_empty.mp apart f
      rw [inSet_and] at bit ⊢
      rw [inSet_not]
      cases inH : inSet h f <;> simp_all
    rw [all, shrink_apart (by rw [channel]; exact apart)]
    exact .inl ⟨w, some'⟩
  · set u := setChannel k { t.ann.channels.get k with held := h &&& ~~~ floors } t with taken
    have shrunk : shrink .dropped k floors t =
        if h &&& ~~~ floors = 0 then stopWarm k u else checkComplete k u := by
      have busy : ¬ ((t.ann.channels.get k).state = .idle ∨ (t.ann.channels.get k).held &&& floors = 0) := by
        rw [channel]
        exact not_or.mpr ⟨by simp [warming], apart⟩
      have notPlaying : ¬ (t.ann.channels.get k).state = .playing := by
        rw [channel]
        simp [warming]
      have keeps : (t.ann.channels.get k).held = h := by rw [channel]
      unfold shrink
      rw [keeps] at busy
      simp only [if_neg notPlaying, keeps, if_neg busy]
      rfl
    have still : StillWarming k s (h &&& ~~~ floors) u := by
      refine ⟨w.within.trans (setChannel_within k _ t), w.powers.trans (setChannel_woken k _ t).powersStay, w.jobs,
        w.owed, ?_⟩
      rw [taken, setChannel_ann_channels, channel, w.channels, set_set]
    have channel' : u.ann.channels.get k = { s.ann.channels.get k with held := h &&& ~~~ floors } := by
      rw [still.channels, Tbl.get_set_self]
    rw [shrunk]
    split
    · next none' =>
      refine .inr ⟨?_, none'⟩
      have job' : (u.ann.channels.get k).job = some j := by rw [channel']; exact job
      have held' : u.ann.jobs.get j = some x := by rw [still.jobs]; exact held
      have idle : (idleChannel k u).ann.channels = s.ann.channels.set k (idled (s.ann.channels.get k)) := by
        rw [idleChannel_ann, channel', still.channels, set_set]
        rfl
      have within := still.within.trans (stopWarm_within k u)
      have powers := still.powers.trans (stopWarm_woken k u).powersStay
      have stops : stopWarm k u =
          if x.cls = .liveBrigade then dropLive j (idleChannel k u) else setJob j (some (toWaiting x)) (idleChannel k u) := by
        simp only [stopWarm, job', held']
      rw [stops] at within powers ⊢
      by_cases live : x.cls = .liveBrigade
      · have drops : dropLive j (idleChannel k u) = setJob j none (stopLimit (idleChannel k u)) :=
          dropJob_eq (s := stopLimit (idleChannel k u)) still.owed
        rw [if_pos live, drops] at within powers ⊢
        refine ⟨within, powers, ?_, still.owed, fun _ => rfl, idle⟩
        rw [if_pos live, setJob_ann_jobs, ← still.jobs]
        rfl
      · rw [if_neg live] at within powers ⊢
        refine ⟨within, powers, ?_, still.owed, fun h => absurd h live, idle⟩
        rw [if_neg live, setJob_ann_jobs, ← still.jobs]
        rfl
    · next left =>
      have noPlay : messagePlay u k = false := by simp [messagePlay, channel', warming]
      rw [checkComplete_none noPlay]
      exact .inl ⟨still, .inl left⟩

include others

/-- R105: a rack's floors dropped from the channel. -/
theorem Warmed.dropped (w : Warmed k j x s h t) : Warmed k j x s (h &&& ~~~ rackFloors s r) (dropRack r t) := by
  have shrunk : Warmed k j x s (h &&& ~~~ rackFloors s r) (shrink .dropped k (rackFloors t r) t) := by
    rcases w with ⟨still, some'⟩ | ⟨given, none'⟩
    · rw [rackFloors_within still.within]
      exact still.shrunk warming job held some' _
    · have idle : (t.ann.channels.get k).state = .idle := by rw [given.channels, Tbl.get_set_self]; rfl
      rw [shrink_idle idle, none']
      exact .inr ⟨given, BitVec.zero_and⟩
  have both : dropRack r t = shrink .dropped 1 (rackFloors (shrink .dropped 0 (rackFloors t r) t) r)
      (shrink .dropped 0 (rackFloors t r) t) := rfl
  have cases' : k = 0 ∨ k = 1 := by omega
  rcases cases' with rfl | rfl
  · rw [both, shrink_idle (shrunk.others_idle others (by decide))]
    exact shrunk
  · rw [both, shrink_idle (k := 0) (w.others_idle others (by decide))]
    exact shrunk

theorem Warmed.failed (w : Warmed k j x s h t) (r : Fin 4) : Warmed k j x s (keptFloors s h r) (failRack t r) := by
  have powers : PowersStay s t := by
    rcases w with ⟨still, -⟩ | ⟨given, -⟩
    · exact still.powers
    · exact given.powers
  by_cases on : (s.ann.racks.get r).power = .on
  · rw [keptFloors, if_pos on, failRack_on ((powers r).2.1.mpr on)]
    exact w
  · have off : (t.ann.racks.get r).power ≠ .on := fun h => on ((powers r).2.1.mp h)
    rw [keptFloors, if_neg on, failRack_off off]
    refine Warmed.dropped warming job held others ?_
    exact w.imp (fun ⟨still, some'⟩ => ⟨still.faulted off, some'⟩) fun ⟨given, none'⟩ => ⟨given.faulted off, none'⟩

theorem Warmed.failedAll (rs : List (Fin 4)) (w : Warmed k j x s h t) :
    Warmed k j x s (rs.foldl (keptFloors s) h) (rs.foldl failRack t) := by
  induction rs generalizing h t with
  | nil => exact w
  | cons r rs ih => exact ih (w.failed warming job held others r)

/-- R105: the channel once every rack of its floors that is not ON is in FAULT. -/
theorem warmed_involved (owed : s.ann.owed = []) :
    Warmed k j x s ((s.ann.channels.get k).held &&& ~~~ unready s (s.ann.channels.get k).held)
      ((involved s (s.ann.channels.get k).held).foldl failRack s) := by
  have begun : Warmed k j x s (s.ann.channels.get k).held s :=
    .inl ⟨⟨.refl _ _, .refl _, rfl, owed, (set_get_self _ _).symm⟩, .inr rfl⟩
  rw [← keptFloors_involved]
  exact begun.failedAll warming job held others _

end Warmed

/-! ### What the warm-up's expiry leaves (R105, R107, R109) -/

theorem warmUpEnd_warming {k : Fin 2} {s : State} (warming : (s.ann.channels.get k).state = .warming) :
    let u := (involved s (s.ann.channels.get k).held).foldl failRack s
    warmUpEnd k s = arbiter (if (u.ann.channels.get k).state = .warming then beginPlay k u else u) := if_pos warming

section Ends

variable {k : Fin 2} {j : Fin 16} {x : Job} {s u : State} {h : FloorSet}

/-- R106: the play begins with the floors that remain. -/
theorem StillWarming.begins (w : StillWarming k s h u) (job : (s.ann.channels.get k).job = some j)
    (held : s.ann.jobs.get j = some x) (playing : x.state = .playing) (others : ∀ i, i ≠ j → s.ann.jobs.get i = none) :
    (arbiter (beginPlay k u)).ann.channels.get k = played { s.ann.channels.get k with held := h } x ∧
      (arbiter (beginPlay k u)).ann.jobs.get j = some (granted x) := by
  have channel : u.ann.channels.get k = { s.ann.channels.get k with held := h } := by rw [w.channels, Tbl.get_set_self]
  have ann := beginPlay_ann (s := u) (k := k) (j := j) (x := x) (by rw [channel]; exact job) (by rw [w.jobs]; exact held)
  have jobs : (beginPlay k u).ann.jobs = s.ann.jobs.set j (some (granted x)) := by rw [ann, w.jobs]
  have busy : (granted x).state ≠ .waiting := by
    rw [granted]
    split <;> simp [playing]
  have quiet : NoneWaiting (beginPlay k u) := by
    refine noneWaiting_of_one (j := j) (by rw [jobs, Tbl.get_set_self]) (fun i other => ?_) busy
    rw [jobs, Tbl.get_set_ne _ _ other.symm]
    exact others i other
  rw [quiet.arbiter]
  refine ⟨?_, by rw [jobs, Tbl.get_set_self]⟩
  rw [ann, Tbl.get_set_self, channel]

/-- R111: a live talk that gave its channel up is over. -/
theorem GivenUp.live_over (w : GivenUp k j x s u) (live : x.cls = .liveBrigade)
    (others : ∀ i, i ≠ j → s.ann.jobs.get i = none) :
    (arbiter u).ann.jobs.get j = none ∧ (arbiter u).ann.liveLimit = none ∧
      ((arbiter u).ann.channels.get k).state = .idle ∧ ((arbiter u).ann.channels.get k).job = none := by
  have jobs : u.ann.jobs = s.ann.jobs.set j none := by rw [w.jobs, if_pos live]
  have empty : ∀ i, u.ann.jobs.get i = none := fun i => by
    rw [jobs, Tbl.get_set]
    split
    · rfl
    · next other => exact others i (Ne.symm other)
  rw [(noneWaiting_of_empty empty).arbiter, w.channels, Tbl.get_set_self]
  exact ⟨empty j, w.limit live, rfl, rfl⟩

/-- R105: the floors of a job none of whose floors is served but those that turned cold are not served any more. -/
theorem unserved_of_cold (powers : PowersStay s u) (w : Within annBlocks s u)
    (fault : ∀ r ∈ involved s h, (s.ann.racks.get r).power ≠ .on → (u.ann.racks.get r).power = .fault)
    {target : FloorSet} (cold : target &&& served s &&& ~~~ unready s h = 0) : target &&& served u = 0 := by
  have seq : u.seq = s.seq := w.seq (by simp [annBlocks, completionBlocks])
  have params : u.params = s.params := w.params (by simp [annBlocks, completionBlocks])
  rw [floorSet_empty] at cold ⊢
  intro f
  have bit := cold f
  simp only [inSet_and, inSet_not, inSet_unready, served, inSet_setOf] at bit ⊢
  have used : inUse u f = inUse s f := by simp only [inUse, params]
  rw [used, seq]
  obtain ⟨address, on, stays⟩ := powers (s.seq.floors.get f).rack
  rw [address]
  by_contra all
  simp only [Bool.not_eq_false, Bool.and_eq_true, bne_iff_ne, ne_eq] at all
  obtain ⟨inTarget, ⟨inUse', fitted⟩, working⟩ := all
  have worked : (s.ann.racks.get (s.seq.floors.get f).rack).power ≠ .fault := fun bad => working (stays bad)
  by_cases ready : (s.ann.racks.get (s.seq.floors.get f).rack).power = .on
  · simp [inTarget, inUse', ready] at bit
    exact fitted bit
  · by_cases inHeld : inSet h f = true
    · exact working (fault _ (mem_involved.mpr ⟨f, inHeld, inUse', rfl⟩) ready)
    · simp [inTarget, inUse', worked, inHeld] at bit
      exact fitted bit

/-- R109: another job that gave its channel up, with no floor served, waits; an all-clear or a test is removed. -/
theorem GivenUp.waits (w : GivenUp k j x s u) (notLive : x.cls ≠ .liveBrigade)
    (others : ∀ i, i ≠ j → s.ann.jobs.get i = none) (unserved : x.target &&& served u = 0) :
    (arbiter u).ann.channels.get k = idled (s.ann.channels.get k) ∧ (arbiter u).ann.jobs.get j =
      (if x.cls = .allClear ∨ x.cls = .test then none else some { x with state := .waiting, channel := none }) := by
  have jobs : u.ann.jobs = s.ann.jobs.set j (some (toWaiting x)) := by rw [w.jobs, if_neg notLive]
  have waits : u.ann.jobs.get j = some (toWaiting x) := by rw [jobs, Tbl.get_set_self]
  have none' : ∀ i, i ≠ j → u.ann.jobs.get i = none := fun i other => by
    rw [jobs, Tbl.get_set_ne _ _ other.symm]
    exact others i other
  have channel : u.ann.channels.get k = idled (s.ann.channels.get k) := by rw [w.channels, Tbl.get_set_self]
  by_cases gone : x.cls = .allClear ∨ x.cls = .test
  · have first : first? (unplayable u) = some j := by
      refine first_of_only ?_ fun i other => by simp [unplayable, none' i other]
      have target : ((toWaiting x).target &&& served u == 0) = true := by
        rw [beq_iff_eq]
        exact unserved
      simp only [unplayable, waits, Option.any_some, target, Bool.and_true]
      rcases gone with cls | cls <;> simp [toWaiting, cls]
    set v := if (u.ann.jobs.get j).any (·.cls == .allClear) then setAllClearDone (setJob j none u) else setJob j none u
      with removed
    have step : arbiterStep u = some v := by
      have removes : removeUnplayable u = some v := by
        simp only [removeUnplayable, first, Option.map_some, dropJob_eq w.owed]
        rfl
      simp only [arbiterStep, removes]
    have ann : v.ann = { u.ann with racks := v.ann.racks, jobs := u.ann.jobs.set j none } := by
      rw [removed]
      split
      · exact setAllClearDone_ann (setJob j none u)
      · rfl
    have empty : ∀ i, v.ann.jobs.get i = none := fun i => by
      rw [ann, Tbl.get_set]
      split
      · rfl
      · next other => exact none' i (Ne.symm other)
    rw [arbiter_one_step step (noneWaiting_of_empty empty).step, if_pos gone]
    refine ⟨?_, empty j⟩
    rw [ann]
    exact channel
  · have stays := one_stays waits none' unserved ⟨fun h => gone (.inl h), fun h => gone (.inr h)⟩
    rw [stays, if_neg gone]
    exact ⟨channel, waits⟩

end Ends

/-- R105: whatever follows, the racks that were not ON stay in FAULT and those that were ON stay so. -/
theorem warmUpEnd_racks {k : Fin 2} {s : State} (warming : (s.ann.channels.get k).state = .warming) :
    (∀ r ∈ involved s (s.ann.channels.get k).held, (s.ann.racks.get r).power ≠ .on →
      ((warmUpEnd k s).ann.racks.get r).power = .fault) ∧
    ∀ r, (s.ann.racks.get r).power = .on → ((warmUpEnd k s).ann.racks.get r).power = .on := by
  set u := (involved s (s.ann.channels.get k).held).foldl failRack s with failed
  have begun : Woken u (if (u.ann.channels.get k).state = .warming then beginPlay k u else u) :=
    .ite (beginPlay_woken k u) (.refl u)
  have after : PowersStay u (warmUpEnd k s) := by
    rw [warmUpEnd_warming warming]
    exact (begun.trans (arbiter_woken _)).powersStay
  exact ⟨fun r mem off => (after r).2.2 (failRacks_fault mem off),
    fun r on => (after r).2.1.mpr ((failRacks_powersStay _ s r).2.1.mpr on)⟩

/-- R105, R107, R109: what the warm-up's expiry leaves of the one job in the table. -/
theorem warmUpEnd_one {k : Fin 2} {j : Fin 16} {x : Job} {s : State}
    (warming : (s.ann.channels.get k).state = .warming) (job : (s.ann.channels.get k).job = some j)
    (held : s.ann.jobs.get j = some x) (playing : x.state = .playing) (others : ∀ i, i ≠ j → s.ann.jobs.get i = none)
    (owed : s.ann.owed = [])
    (idle : ∀ l, l ≠ k → (s.ann.channels.get l).state = .idle ∧ (s.ann.channels.get l).job = none) :
    let c := s.ann.channels.get k
    let cold := unready s c.held
    let t := warmUpEnd k s
    (c.held &&& ~~~ cold ≠ 0 → t.ann.channels.get k = played { c with held := c.held &&& ~~~ cold } x ∧
      t.ann.jobs.get j = some (granted x)) ∧
    (c.held &&& ~~~ cold = 0 → cold ≠ 0 → x.cls = .liveBrigade →
      t.ann.jobs.get j = none ∧ t.ann.liveLimit = none ∧
      (t.ann.channels.get k).state = .idle ∧ (t.ann.channels.get k).job = none) ∧
    (c.held &&& ~~~ cold = 0 → cold ≠ 0 → x.cls ≠ .liveBrigade → x.target &&& served s &&& ~~~ cold = 0 →
      t.ann.channels.get k = idled c ∧ t.ann.jobs.get j =
        (if x.cls = .allClear ∨ x.cls = .test then none else some { x with state := .waiting, channel := none })) := by
  intro c cold t
  set u := (involved s c.held).foldl failRack s with failed
  have warmed : Warmed k j x s (c.held &&& ~~~ cold) u := warmed_involved warming job held idle owed
  have ends : t = arbiter (if (u.ann.channels.get k).state = .warming then beginPlay k u else u) :=
    warmUpEnd_warming warming
  have given : c.held &&& ~~~ cold = 0 → cold ≠ 0 → GivenUp k j x s u ∧ t = arbiter u := by
    intro none' some'
    rcases warmed with ⟨-, left | all⟩ | ⟨given, -⟩
    · exact absurd none' left
    · refine absurd (floorSet_empty.mpr fun f => ?_) some'
      have zero : inSet c.held f = false := floorSet_empty.mp (all.symm.trans none') f
      rw [inSet_unready, zero, Bool.false_and]
    · have idle' : (u.ann.channels.get k).state ≠ .warming := by
        rw [given.channels, Tbl.get_set_self]
        exact fun h => nomatch h
      exact ⟨given, by rw [ends, if_neg idle']⟩
  refine ⟨fun left => ?plays, fun none' some' live => ?live, fun none' some' notLive unserved => ?waits⟩
  case plays =>
    rcases warmed with ⟨still, -⟩ | ⟨-, none'⟩
    · have on : (u.ann.channels.get k).state = .warming := by
        rw [still.channels, Tbl.get_set_self]
        exact warming
      rw [ends, if_pos on]
      exact still.begins job held playing others
    · exact absurd none' left
  case live =>
    obtain ⟨up, rests⟩ := given none' some'
    rw [rests]
    exact up.live_over live others
  case waits =>
    obtain ⟨up, rests⟩ := given none' some'
    rw [rests]
    exact up.waits notLive others (unserved_of_cold up.powers up.within (fun r mem off => failRacks_fault mem off) unserved)

/-- Settles O56. -/
theorem warmUpExpiryFaultsRacks : Obligations.WarmUpExpiryFaultsRacks := by
  refine ⟨fun k s powered warming => ?racks, fun k j x s powered => ?one⟩
  case racks =>
    obtain ⟨fault, on⟩ := warmUpEnd_racks (s := beginEvent s) warming
    obtain ⟨step, within⟩ := scheduler_event powered (warmUpEnd_within k)
    refine ⟨_, step, ?_, ?_, within⟩
    · rw [finish_ann]
      exact fault
    · rw [finish_ann]
      exact on
  case one =>
    intro c cold warming job held playing others owed idle
    obtain ⟨plays, live, waits⟩ := warmUpEnd_one (s := beginEvent s) warming job held playing others owed idle
    have fresh := warmUpEnd_noNew k (beginEvent s) owed
    refine ⟨_, effect_on _ powered, fun i other => ?_, fun left => ?_, fun none' some' isLive => ?_,
      fun none' some' notLive unserved => ?_⟩
    · rw [finish_ann]
      exact fresh.2 i (others i other)
    · obtain ⟨channel, job'⟩ := plays left
      rw [finish_ann]
      refine ⟨channel, job'.trans ?_⟩
      rw [granted]
    · rw [finish_ann]
      exact live none' some' isLive
    · obtain ⟨channel, job'⟩ := waits none' some' notLive unserved
      rw [finish_ann, channel]
      exact ⟨rfl, rfl, rfl, job'⟩

end Sys2Proof.Safety

/-! PROOFS. Turns on the P-line (section 6.6) and the receivers of both lines (section 6.2). -/

namespace Sys2Proof.Safety

-- One proof at a time: the package as one text then compiles within the memory it is given.
set_option Elab.async false

open Sys2Proof.Machine

/-! ### Operations of the P-line alone -/

/-- A change of the P-line's block and of nothing else. -/
def PortOnly (s t : State) : Prop := t = { s with port := t.port }

namespace PortOnly

variable {s t u : State}

theorem refl (s : State) : PortOnly s s := rfl

theorem trans (h : PortOnly s t) (k : PortOnly t u) : PortOnly s u := by
  rw [PortOnly, k, h]

theorem same (h : PortOnly s t) (b : Block) (m : b ∉ [Block.turn, .receivers]) : Safety.same b s t := by
  rw [h]
  cases b <;> simp_all [Safety.same]

theorem calm (h : PortOnly s t) : Calm s t := by
  rw [h]
  exact ⟨rfl, rfl⟩

theorem log (h : PortOnly s t) : t.log = s.log := by rw [h]

theorem sline (h : PortOnly s t) : t.sline = s.sline := by rw [h]

theorem params (h : PortOnly s t) : t.params = s.params := by rw [h]

end PortOnly

/-- An event of the P-line: the port is what the operation makes of it, and nothing else changes but the common lines. -/
theorem port_event {f : State → State} {s : State} (powered : s.powered = true)
    (only : PortOnly (beginEvent s) (f (beginEvent s))) :
    ∃ t, effect f s = .next t ∧ t.port = (f (beginEvent s)).port ∧ t.log = s.log ∧ t.sline = s.sline ∧
      t.regime = s.regime ∧ ∀ b, b ∉ [Block.turn, .receivers, .lines] → same b s t := by
  have inputs : ∀ b, b ∉ [Block.turn, .receivers] → same b s (f (beginEvent s)) := fun b m =>
    same_trans ((beginEvent_within [] s).only b (by simp)) (only.same b m)
  have settled : finish s (f (beginEvent s)) = settleLines s (f (beginEvent s)) :=
    finish_of_same_inputs (fun b m => inputs b (by revert b; decide)) only.calm
  refine ⟨_, effect_on f powered, ?_, ?_, ?_, ?_, fun b m => ?_⟩ <;> rw [settled]
  · rfl
  · exact only.log
  · exact only.sline
  · exact only.calm.regime
  · exact same_trans (inputs b (by simp_all)) ((settleLines_within s _).only b (by simp_all))

theorem setRx_p_only (r : Rx) (s : State) : PortOnly s (setRx .p r s) := rfl

theorem grantTurn_only (master : Byte) (s : State) : PortOnly s (grantTurn master s) := rfl

theorem takeFrame_only (t : Turn) (s : State) : PortOnly s (takeFrame t s) := by
  unfold takeFrame
  split <;> rfl

theorem startFrame_only (s : State) : PortOnly s (startFrame s) := by
  unfold startFrame
  split
  · split
    · rfl
    · exact (setRx_p_only .hunt s).trans (takeFrame_only _ _)
  · rfl

theorem breakTurn_only (s : State) : PortOnly s (breakTurn s) := by
  unfold breakTurn
  split <;> rfl

theorem frameSent_only (s : State) : PortOnly s (frameSent s) := by
  unfold frameSent
  extract_lets u
  have started : PortOnly s u := startFrame_only s
  split
  · exact started
  · refine started.trans ?_
    split <;> exact rfl

/-! ### A POLL (R126, R129) -/

/-- Settles O32. -/
theorem pollGrantsTurn : Obligations.PollGrantsTurn := by
  intro h payload s powered dst own
  set f := fromP fun s =>
    if h.dst = 0 then s
    else if h.dst = s.addrs.own then grantTurn h.src s
    else filterFrame (frameWith h kindPoll payload) s with taken
  have grants : f (beginEvent s) = grantTurn h.src (frameTaken s) :=
    (if_neg dst).trans (if_pos own)
  have only : PortOnly (beginEvent s) (f (beginEvent s)) := by
    rw [grants]
    exact (setRx_p_only .hunt _).trans (grantTurn_only _ _)
  obtain ⟨t, step, port, log, sline, regime, same⟩ := port_event powered only
  rw [grants] at port
  exact ⟨t, step, by rw [port]; rfl, by rw [port]; rfl, by rw [port]; rfl, log, by rw [port]; rfl, same, regime,
    by rw [sline], by rw [sline]⟩

/-! ### A frame of a turn (R126 to R129) -/

section FrameSent

variable {m : Byte} {n : Nat} {s : State}

theorem startFrame_report {e : QEntry} {rest : List QEntry}
    (turn : s.port.turn = some { master := m, sent := n, frame := none }) (below : n < s.params.framesPerTurn)
    (queue : s.port.queue = e :: rest) :
    (startFrame s).port = { s.port with
      queue := { e with sending := true } :: rest
      turn := some { master := m, sent := n, frame := some (.report e) }
      line := { s.port.line with rx := .hunt } } := by
  rw [startFrame_gap turn rfl, takeFrame_report (s := setRx .p .hunt s) queue below]
  rfl

/-- R127: TURN END, with the number left and the URGENT mark. -/
def closing (s : State) : TurnFrame := .turnEnd s.port.queue.length (decide (s.params.queueMark ≤ s.port.queue.length))

theorem startFrame_closing (turn : s.port.turn = some { master := m, sent := n, frame := none })
    (last : s.params.framesPerTurn ≤ n ∨ s.port.queue = []) :
    (startFrame s).port = { s.port with
      turn := some { master := m, sent := n, frame := some (closing s) }
      line := { s.port.line with rx := .hunt } } := by
  rw [startFrame_gap turn rfl, takeFrame_turnEnd (s := setRx .p .hunt s) (t := { master := m, sent := n, frame := none }) last]
  rfl

/-- R126: a report frame sent takes its entry from the queue, and the next gap begins. -/
theorem frameSent_report {e : QEntry}
    (turn : (startFrame s).port.turn = some { master := m, sent := n, frame := some (.report e) }) :
    (frameSent s).port = { (startFrame s).port with
      queue := (startFrame s).port.queue.filter fun e => !e.sending
      turn := some { master := m, sent := n + 1, frame := none }
      line := { (startFrame s).port.line with rx := .hunt } } := by
  unfold frameSent
  simp only [turn]
  rfl

/-- R129: TURN END sent, the turn is over. -/
theorem frameSent_turnEnd {k : Nat} {u : Bool}
    (turn : (startFrame s).port.turn = some { master := m, sent := n, frame := some (.turnEnd k u) }) :
    (frameSent s).port = { (startFrame s).port with
      turn := none
      timeout := timeoutAfter (startFrame s).port.queue
      line := { (startFrame s).port.line with rx := .hunt } } := by
  unfold frameSent
  simp only [turn]
  rfl

theorem timeoutAfter_eq (q : List QEntry) : timeoutAfter q = { left := ticks 5, running := decide (q ≠ []) } := by
  unfold timeoutAfter
  split
  · next empty => rw [empty]; rfl
  · next held => simp [held, runningTimeout]

/-- A turn has a frame to start, or it closes. -/
theorem report_or_closing (s : State) (n : Nat) :
    (∃ e rest, s.port.queue = e :: rest ∧ n < s.params.framesPerTurn) ∨
      (s.params.framesPerTurn ≤ n ∨ s.port.queue = []) := by
  cases queue : s.port.queue with
  | nil => exact .inr (.inr rfl)
  | cons e rest =>
    by_cases below : n < s.params.framesPerTurn
    · exact .inl ⟨e, rest, rfl, below⟩
    · exact .inr (.inl (by omega))

end FrameSent

theorem tickCounter_port (s : State) : (tickCounter s).port = s.port := by
  unfold tickCounter
  split
  · rw [finish_port, wrapStamp, appendLog_port]
    rfl
  · rfl

/-- R160: 10 ms start the frame of a turn in its gap. -/
theorem tick_port (s : State) : (tick s).port = (startFrame (tickTimers s)).port := tickCounter_port _

/-- Settles O33. -/
theorem sentFrameAdvancesTurn : Obligations.SentFrameAdvancesTurn := by
  refine ⟨fun m n s powered turn => ⟨fun empty idle => ?starts, ?gap⟩, fun m n e s powered turn => ?report,
    fun m n k u s powered turn => ?closed⟩
  case starts =>
    have turn' : (tickTimers s).port.turn = some { master := m, sent := n, frame := none } := turn
    refine ⟨tick s, step_tick empty powered idle, ?_, fun below e rest queue => ?_, fun last => ?_⟩
    · rw [tick_port]
      rcases report_or_closing (tickTimers s) n with ⟨e, rest, queue, below⟩ | last
      · rw [startFrame_report turn' below queue]
      · rw [startFrame_closing turn' last]
    · rw [tick_port, startFrame_report turn' below queue]
      exact ⟨rfl, rfl⟩
    · rw [tick_port, startFrame_closing turn' last]
      exact ⟨rfl, rfl⟩
  case gap =>
    have turn' : (beginEvent s).port.turn = some { master := m, sent := n, frame := none } := turn
    obtain ⟨t, step, port, log, -, regime, same⟩ := port_event powered (frameSent_only (beginEvent s))
    have sent : ∀ e rest, s.port.queue = e :: rest → n < s.params.framesPerTurn → t.port = { s.port with
        queue := rest.filter fun x => !x.sending
        turn := some { master := m, sent := n + 1, frame := none }
        line := { s.port.line with rx := .hunt } } := by
      intro e rest queue below
      have started := startFrame_report turn' below queue
      rw [port, frameSent_report (m := m) (n := n) (e := e) (by rw [started]), started]
      rfl
    have ended : s.params.framesPerTurn ≤ n ∨ s.port.queue = [] → t.port = { s.port with
        turn := none
        timeout := timeoutAfter s.port.queue
        line := { s.port.line with rx := .hunt } } := by
      intro last
      have started := startFrame_closing turn' last
      rw [port, frameSent_turnEnd (m := m) (n := n) (by rw [started]; rfl), started]
      rfl
    have kept : t.port.line = { s.port.line with rx := .hunt } ∧ t.port.silent = s.port.silent := by
      rcases report_or_closing s n with ⟨e, rest, queue, below⟩ | last
      · rw [sent e rest queue below]
        exact ⟨rfl, rfl⟩
      · rw [ended last]
        exact ⟨rfl, rfl⟩
    refine ⟨t, step, log, kept.1, kept.2, fun below e rest queue => ?_, fun last => ?_, same, regime⟩
    · rw [sent e rest queue below]
      exact ⟨rfl, rfl⟩
    · rw [ended last]
      exact ⟨rfl, rfl, timeoutAfter_eq _⟩
  case report =>
    have still : startFrame (beginEvent s) = beginEvent s := startFrame_no_gap (by simp [inGap, turn])
    obtain ⟨t, step, port, log, sline, regime, same⟩ := port_event powered (frameSent_only (beginEvent s))
    rw [frameSent_report (m := m) (n := n) (e := e) (by rw [still]; exact turn), still] at port
    exact ⟨t, step, by rw [port]; rfl, log, by rw [port], by rw [port]; rfl, by rw [sline], by rw [port]; rfl, same,
      regime⟩
  case closed =>
    have still : startFrame (beginEvent s) = beginEvent s := startFrame_no_gap (by simp [inGap, turn])
    obtain ⟨t, step, port, log, sline, regime, same⟩ := port_event powered (frameSent_only (beginEvent s))
    rw [frameSent_turnEnd (m := m) (n := n) (k := k) (u := u) (by rw [still]; exact turn), still] at port
    exact ⟨t, step, by rw [port], by rw [port]; rfl, log, by rw [port]; exact timeoutAfter_eq _, by rw [port]; rfl,
      by rw [sline], by rw [port]; rfl, same, regime⟩

/-! ### A turn abandoned, and the turn timeout (R128, R129) -/

/-- R128: the commands by which a character of another station is heard in a gap. -/
def HeardAs (c : Heard) (rx : Rx) (i : Instr) : Prop :=
  i = .turnAbandoned c ∨ (∃ b, i = .frameBegun .p b ∧ c = .good b ∧ rx = .ready) ∨
    (i = .brokenCharacter .p ∧ c = .broken) ∨ (i = .characterInHunt .p ∧ rx = .hunt)

theorem receive_gap {f : State → State} {s : State} (gap : inGap s = true) : receive .p f s = f s := by
  have quiet : transmitting s .p = false := by
    by_contra sends
    rw [transmitting_not_gap (by simpa using sends)] at gap
    cases gap
  rw [receive, quiet]
  rfl

theorem setRx_self {s : State} {r : Rx} (h : s.port.line.rx = r) : setRx .p r s = s := by
  rw [← h]
  rfl

/-- R128: by whichever command the character comes, the receiver hears it and the turn is abandoned. -/
theorem heard_exec {c : Heard} {i : Instr} {s : State} (gap : inGap (beginEvent s) = true)
    (heard : HeardAs c s.port.line.rx i) :
    ∃ f, exec i s = effect f s ∧
      f (beginEvent s) = breakTurn (setRx .p (hear s.port.line.rx c) (beginEvent s)) := by
  rcases heard with rfl | ⟨b, rfl, rfl, ready⟩ | ⟨rfl, rfl⟩ | ⟨rfl, hunt⟩
  · exact ⟨abandonTurn c, rfl, if_pos gap⟩
  · refine ⟨beginFrame .p b, rfl, ?_⟩
    rw [beginFrame, receive_gap gap, ready]
    exact if_pos ready
  · refine ⟨hearBroken .p, rfl, ?_⟩
    have hears : hear s.port.line.rx .broken = .hunt := by cases s.port.line.rx <;> rfl
    rw [hearBroken, receive_gap gap, hears]
    split <;> rfl
  · refine ⟨hearInHunt .p, rfl, ?_⟩
    rw [hearInHunt, receive_gap gap, hunt]
    have hunt' : (beginEvent s).port.line.rx = .hunt := hunt
    rw [show hear .hunt c = .hunt from rfl, setRx_self hunt']
    exact if_pos hunt

/-- Settles O34. -/
theorem abandonedTurnAndTimeout : Obligations.AbandonedTurnAndTimeout := by
  refine ⟨fun c i u s powered turn unstarted heard => ?abandoned, fun c u s powered turn started => ?whole,
    fun s powered running => ?timeout⟩
  case abandoned =>
    have gap : inGap (beginEvent s) = true := by simp [inGap, turn, unstarted]
    obtain ⟨f, runs, acts⟩ := heard_exec gap heard
    have only : PortOnly (beginEvent s) (f (beginEvent s)) := by
      rw [acts]
      exact (setRx_p_only _ _).trans (breakTurn_only _)
    obtain ⟨t, step, port, log, -, regime, same⟩ := port_event powered only
    rw [acts, breakTurn_gap ((inGap_setRx .p _ _).trans gap)] at port
    have unmarked : (unmark s.port.queue ≠ []) ↔ s.port.queue ≠ [] := by simp [unmark]
    refine ⟨t, runs.trans step, by rw [port], by rw [port]; rfl, ?_, log, by rw [port]; rfl, by rw [port]; rfl, same,
      regime⟩
    rw [port]
    refine (timeoutAfter_eq _).trans ?_
    exact congrArg (fun b => ({ left := ticks 5, running := b } : Stopwatch)) (decide_eq_decide.mpr unmarked)
  case whole =>
    have gap : inGap (beginEvent s) = false := by
      simpa [inGap, turn, Option.isSome_iff_ne_none] using started
    have still : abandonTurn c (beginEvent s) = beginEvent s := by rw [abandonTurn, gap]; rfl
    have settled : finish s (beginEvent s) = settleLines s (beginEvent s) :=
      finish_calm (beginEvent_within [] s).toKeeps (.refl _)
    refine ⟨settleLines s (beginEvent s), ?_, rfl, ⟨rfl, rfl⟩,
      (beginEvent_within _ s).trans (settleLines_within s _)⟩
    rw [← settled, ← still]
    exact effect_on (abandonTurn c) powered
  case timeout =>
    have acts : timeoutEnd (beginEvent s) = { beginEvent s with port := { s.port with
        timeout := { left := 0, running := false }, silent := true } } := if_pos running
    have only : PortOnly (beginEvent s) (timeoutEnd (beginEvent s)) := by
      rw [acts]
      rfl
    obtain ⟨t, step, port, log, sline, regime, same⟩ := port_event powered only
    rw [acts] at port
    refine ⟨t, step, by rw [port], by rw [port], by rw [port], ⟨log, by rw [port]⟩, fun b m => ?_, regime⟩
    by_cases receivers : b = .receivers
    · rw [receivers]
      exact ⟨by rw [port], by rw [sline]⟩
    · exact same b (by simp_all)

/-! ### The receivers (R119, R130) -/

/-- An event of a receiver that ends no transaction: its line's receiver alone is changed. -/
theorem receiver_event {f : State → State} {s u : State} (powered : s.powered = true) (acts : f (beginEvent s) = u)
    (w : Within [.receivers] (beginEvent s) u) (calm : Calm (beginEvent s) u) (silent : Silent s u) :
    effect f s = .next (settleLines s u) ∧ Silent s (settleLines s u) ∧
      Within [.receivers, .lines] s (settleLines s u) := by
  have within : Within [.receivers] s u := (beginEvent_within _ s).trans w
  have settled := finish_calm within.toKeeps calm
  rw [effect_on f powered, acts, settled]
  exact ⟨rfl, silent, settled ▸ within.calm_finished calm⟩

/-- A receiver put into a state, and nothing else. -/
theorem receiver_set {l : Line} {r : Rx} {f : State → State} {s : State} (powered : s.powered = true)
    (acts : f (beginEvent s) = setRx l r (beginEvent s)) :
    ∃ t, effect f s = .next t ∧ (trunk t l).rx = r ∧ Silent s t ∧ Within [.receivers, .lines] s t := by
  have silent : Silent s (setRx l r (beginEvent s)) := by cases l <;> exact ⟨rfl, rfl⟩
  obtain ⟨step, quiet, within⟩ := receiver_event powered acts (setRx_within l r _) (setRx_calm l r _) silent
  refine ⟨_, step, ?_, quiet, within⟩
  cases l <;> rfl

theorem receive_free {l : Line} {f : State → State} {s : State} (free : transmitting s l = false) :
    receive l f s = f s := by
  rw [receive, free]
  rfl

theorem receive_held {l : Line} {f : State → State} {s : State} (held : transmitting s l = true) :
    receive l f s = setRx l .hunt s := if_pos held

theorem discarded_no_txn {l : Line} {s : State} (absent : s.sline.txn = none) : discarded l s = s := by
  cases l with
  | p => rfl
  | s => simp [discarded, absent]

theorem takeRate_rx (l : Line) (s : State) : (trunk (takeRate l s) l).rx = (trunk s l).rx := by
  unfold takeRate
  split
  · cases l <;> rfl
  · rfl

theorem takeRate_calm (l : Line) (s : State) : Calm s (takeRate l s) := by
  unfold takeRate
  split
  · cases l <;> exact ⟨rfl, rfl⟩
  · exact .refl s

theorem takeRate_silent (l : Line) (s : State) : Silent s (takeRate l s) := by
  unfold takeRate
  split
  · cases l <;> exact ⟨rfl, rfl⟩
  · exact ⟨rfl, rfl⟩

/-- R119: 2 ms of silence leave a receiver READY, its line at the rate set if it is free. -/
theorem receiver_ready {l : Line} {f : State → State} {s : State} (powered : s.powered = true)
    (acts : f (beginEvent s) = takeRate l (setRx l .ready (beginEvent s))) :
    ∃ t, effect f s = .next t ∧ (trunk t l).rx = .ready ∧ Silent s t ∧ Within [.receivers, .lines] s t := by
  have silent : Silent s (takeRate l (setRx l .ready (beginEvent s))) := by
    obtain ⟨log, queue⟩ := takeRate_silent l (setRx l .ready (beginEvent s))
    rw [Silent, log, queue]
    cases l <;> exact ⟨rfl, rfl⟩
  obtain ⟨step, quiet, within⟩ := receiver_event powered acts
    ((setRx_within l .ready _).trans (takeRate_within l _)) ((setRx_calm l .ready _).trans (takeRate_calm l _)) silent
  refine ⟨_, step, ?_, quiet, within⟩
  have set : (trunk (takeRate l (setRx l .ready (beginEvent s))) l).rx = .ready := by
    rw [takeRate_rx]
    cases l <;> rfl
  cases l <;> exact set

theorem setRx_txn {l : Line} {s : State} (txn : s.sline.txn = none) (r : Rx) :
    (setRx l r (beginEvent s)).sline.txn = none := by
  cases l <;> exact txn

theorem noteHeard_none {l : Line} {s : State} (turn : s.port.turn = none) (r : Rx) :
    noteHeard l (setRx l r (beginEvent s)) = setRx l r (beginEvent s) := by
  cases l with
  | p => exact breakTurn_no_gap (by simp [inGap, turn])
  | s => rfl

section Free

variable {l : Line} {s : State} (txn : s.sline.txn = none) (turn : s.port.turn = none)

include txn turn

theorem free_of_none : transmitting (beginEvent s) l = false := by
  cases l <;> simp [transmitting, txn, turn]

theorem fallSilent_free : fallSilent l (beginEvent s) = takeRate l (setRx l .ready (beginEvent s)) := by
  rw [fallSilent, receive_free (free_of_none txn turn)]
  split
  · rw [discarded_no_txn (setRx_txn txn _)]
  · rfl

theorem hearBroken_free : hearBroken l (beginEvent s) = setRx l .hunt (beginEvent s) := by
  rw [hearBroken, receive_free (free_of_none txn turn)]
  split
  · rw [discarded_no_txn (setRx_txn txn _), noteHeard_none turn]
  · exact noteHeard_none turn _

theorem hearLong_free {bs : List Byte} (inFrame : (trunk (beginEvent s) l).rx = .inFrame bs) :
    hearLong l (beginEvent s) = setRx l .hunt (beginEvent s) := by
  rw [hearLong, receive_free (free_of_none txn turn), inFrame]
  exact discarded_no_txn (setRx_txn txn _)

theorem hearInHunt_free (hunt : (trunk (beginEvent s) l).rx = .hunt) :
    hearInHunt l (beginEvent s) = setRx l .hunt (beginEvent s) := by
  have still : setRx l .hunt (beginEvent s) = beginEvent s := by
    rw [← hunt]
    cases l <;> rfl
  rw [hearInHunt, receive_free (free_of_none txn turn), if_pos hunt, ← noteHeard_none turn .hunt, still]

theorem beginFrame_free (ready : (trunk (beginEvent s) l).rx = .ready) (b : Byte) :
    beginFrame l b (beginEvent s) = setRx l (.inFrame [b]) (beginEvent s) := by
  rw [beginFrame, receive_free (free_of_none txn turn), if_pos ready]
  cases l with
  | p => exact breakTurn_no_gap (by simp [inGap, turn])
  | s =>
    have idle : (setRx .s (.inFrame [b]) (beginEvent s)).sline.txn = none := txn
    simp only [markCandidate, idle]

end Free

/-- R119, R130, R128: every event of a receiver held in HUNT while the bridge transmits. -/
theorem receiver_held {l : Line} {b : Byte} {c : Instr} {s : State} (powered : s.powered = true)
    (mem : c ∈ receiverEvents l b) (held : transmitting (beginEvent s) l = true)
    (kept : discarded l (setRx l .hunt (beginEvent s)) = setRx l .hunt (beginEvent s)) :
    ∃ t, exec c s = .next t ∧ (trunk t l).rx = .hunt ∧ Silent s t ∧ Within [.receivers, .lines] s t := by
  simp only [receiverEvents, List.mem_cons, List.not_mem_nil, or_false] at mem
  rcases mem with rfl | rfl | rfl | rfl | rfl | rfl
  · exact receiver_set (f := fallSilent l) powered (receive_held held)
  · exact receiver_set (f := takeBadFrame l) powered kept
  · exact receiver_set (f := hearBroken l) powered (receive_held held)
  · exact receiver_set (f := hearLong l) powered (receive_held held)
  · exact receiver_set (f := hearInHunt l) powered (receive_held held)
  · exact receiver_set (f := beginFrame l b) powered (receive_held held)

theorem fallSilent_hunt {l : Line} {s : State} (free : transmitting (beginEvent s) l = false)
    (hunt : (trunk (beginEvent s) l).rx = .hunt) :
    fallSilent l (beginEvent s) = takeRate l (setRx l .ready (beginEvent s)) := by
  rw [fallSilent, receive_free free, hunt]

/-- R160: 10 ms start the frame of a turn in its gap, its receiver in HUNT. -/
theorem tick_starts {u : Turn} {s : State} (turn : s.port.turn = some u) (gap : u.frame = none) :
    (∃ f, (tick s).port.turn = some { u with frame := some f }) ∧ (tick s).port.line.rx = .hunt := by
  obtain ⟨m, n, frame⟩ := u
  subst gap
  have turn' : (tickTimers s).port.turn = some { master := m, sent := n, frame := none } := turn
  rw [tick_port]
  rcases report_or_closing (tickTimers s) n with ⟨e, rest, queue, below⟩ | last
  · rw [startFrame_report turn' below queue]
    exact ⟨⟨_, rfl⟩, rfl⟩
  · rw [startFrame_closing turn' last]
    exact ⟨⟨_, rfl⟩, rfl⟩

/-- Settles O47. -/
theorem receiverStates : Obligations.ReceiverStates := by
  refine ⟨fun l s powered txn turn => ?free, fun x s powered txn => ?transaction, fun u s powered turn => ?turn⟩
  case free =>
    have same : trunk (beginEvent s) l = trunk s l := by cases l <;> rfl
    refine ⟨receiver_ready powered (fallSilent_free txn turn),
      fun bytes => receiver_set (f := takeBadFrame l) powered (discarded_no_txn (setRx_txn txn _)),
      receiver_set powered (hearBroken_free txn turn),
      fun bs inFrame => receiver_set powered (hearLong_free txn turn (by rw [same]; exact inFrame)),
      fun hunt => receiver_set powered (hearInHunt_free txn turn (by rw [same]; exact hunt)),
      fun ready b => receiver_set powered (beginFrame_free txn turn (by rw [same]; exact ready) b)⟩
  case transaction =>
    refine ⟨fun noWindow noCandidate b c mem => ?_, fun window hunt => ?_⟩
    · have held : transmitting (beginEvent s) .s = true := by simp [transmitting, txn, noWindow, noCandidate]
      have kept : discarded .s (setRx .s .hunt (beginEvent s)) = setRx .s .hunt (beginEvent s) := by
        have txn' : (setRx .s .hunt (beginEvent s)).sline.txn = some x := txn
        simp [discarded, txn', noCandidate]
      exact receiver_held powered mem held kept
    · have free : transmitting (beginEvent s) .s = false := by
        have some' : x.window.isNone = false := by simpa using window
        simp [transmitting, txn, some']
      exact receiver_ready powered (fallSilent_hunt free hunt)
  case turn =>
    refine ⟨fun started b c mem => ?_, fun gap hunt => ?_, fun gap empty idle => ?_⟩
    · have held : transmitting (beginEvent s) .p = true := by
        simpa [transmitting, turn, Option.isSome_iff_ne_none] using started
      exact receiver_held powered mem held rfl
    · have free : transmitting (beginEvent s) .p = false := by simp [transmitting, turn, gap]
      exact receiver_ready powered (fallSilent_hunt free hunt)
    · exact ⟨tick s, step_tick empty powered idle, tick_starts turn gap⟩

/-! ### Events of calm operations -/

/-- R151: an event of calm operations that leave what the polls are taken from as it was. -/
theorem calm_event {f : State → State} {s : State} {bs cs : List Block} (powered : s.powered = true)
    (w : Within bs s (f (beginEvent s))) (calm : Calm (beginEvent s) (f (beginEvent s)))
    (m : ∀ b ∈ pollInputs, b ∉ bs := by decide) (sub : ∀ b ∈ Block.lines :: bs, b ∈ cs := by decide) :
    effect f s = .next (settleLines s (f (beginEvent s))) ∧ Within cs s (settleLines s (f (beginEvent s))) := by
  have settled := finish_calm w.toKeeps calm m
  rw [effect_on f powered, settled]
  exact ⟨rfl, settled ▸ w.calm_finished calm m sub⟩

theorem Silent.appendLog {s t : State} (h : Silent s t) (k : EventKind) (x : Subject) (d : Detail) :
    Silent (Machine.appendLog k x d s) (Machine.appendLog k x d t) := by
  obtain ⟨log, queue⟩ := h
  exact ⟨by rw [appendLog_log, appendLog_log, log], by rw [appendLog_port, appendLog_port, queue]⟩

/-- R125, R162: one record and one report, while nothing else has been logged or reported. -/
theorem logged_offered (k : EventKind) (x : Subject) (d : Detail) (dest : Byte) (cls : Nat) (p : Payload) {s t : State}
    (h : Silent s t) : LoggedOffered k x d dest cls p s (queueReport dest cls p (appendLog k x d t)) :=
  queueReport_offered _ _ _ (h.appendLog k x d)

theorem LoggedOffered.finished {k : EventKind} {x : Subject} {d : Detail} {dest : Byte} {cls : Nat} {p : Payload}
    {s t : State} (h : LoggedOffered k x d dest cls p s t) (before : State) :
    LoggedOffered k x d dest cls p s (finish before t) := Offered.finished h before

/-- What is settled on the common lines touches neither the log nor the queue. -/
theorem LoggedOffered.settled {k : EventKind} {x : Subject} {d : Detail} {dest : Byte} {cls : Nat} {p : Payload}
    {s t : State} (h : LoggedOffered k x d dest cls p s t) (before : State) :
    LoggedOffered k x d dest cls p s (settleLines before t) := h

/-! ### Frames offered to the filter list (R133, R134) -/

section Offered

variable {f : Frame} {s : State}

theorem offerForward_calm (f : Frame) (s : State) : Calm s (offerForward f s) := by
  unfold offerForward
  split
  · exact appendLog_calm ..
  · exact ⟨rfl, rfl⟩

theorem cross_calm (f : Frame) (s : State) : Calm s (cross f s) := (offerForward_calm f s).ite (.refl s)

theorem act_calm (i : Fin 32) (a : FilterAction) (f : Frame) (s : State) : Calm s (act i a f s) := by
  cases a with
  | forward => exact cross_calm f s
  | forwardAndLog => exact (appendLog_calm ..).trans (cross_calm f _)
  | gatedForward => exact .ite (.ite (offerForward_calm f s) (appendLog_calm ..)) (.refl s)
  | drop => exact .refl s
  | capture k => exact ⟨rfl, rfl⟩
  | captureAndForward k =>
    have captured : Calm s (capture k i f s) := ⟨rfl, rfl⟩
    exact captured.trans (cross_calm f _)

theorem filterFrame_calm (f : Frame) (s : State) : Calm s (filterFrame f s) := by
  unfold filterFrame
  split
  · exact act_calm ..
  · exact (cross_calm f s).ite (.refl s)

theorem filterFrame_matched {i : Fin 32} {a : FilterAction} (match' : matching s f = some i)
    (action : (s.cls.filter.get i).action = a) : filterFrame f s = act i a f s := by
  rw [filterFrame, match', ← action]

theorem filterFrame_default (unmatched : matching s f = none) :
    filterFrame f s = if s.params.defaultForward then cross f s else s := by
  rw [filterFrame, unmatched]

/-- R142: the S forward queue with a frame placed, as it arrives now. -/
def withForward (f : Frame) (s : State) : Classifier :=
  { s.cls with queue := placeForward { frame := f, arrival := now s, onLine := false, late := false } s.cls.queue }

theorem offerForward_of_room (room : s.cls.queue.length < 16) (wait : s.mgmt.wait = none) :
    offerForward f s = { s with cls := withForward f s } := by
  rw [offerForward, if_neg (by simp [room, wait])]
  rfl

theorem cross_of_room (crosses : forwardable f = true) (room : s.cls.queue.length < 16) (wait : s.mgmt.wait = none) :
    cross f s = { s with cls := withForward f s } := by
  rw [cross, if_pos crosses, offerForward_of_room room wait]

/-- A frame of the P-line dealt with by calm operations that leave what the polls are taken from as it was. -/
theorem frame_event {g : State → State} {t : State} {bs cs : List Block} (powered : s.powered = true)
    (acts : g (frameTaken s) = t) (w : Within bs (frameTaken s) t) (calm : Calm (frameTaken s) t)
    (m : ∀ b ∈ pollInputs, b ∉ .receivers :: bs := by decide)
    (sub : ∀ b ∈ Block.lines :: .receivers :: bs, b ∈ cs := by decide) :
    effect (fromP g) s = .next (settleLines s t) ∧ Within cs s (settleLines s t) := by
  subst acts
  have taken : Within (.receivers :: bs) s (g (frameTaken s)) :=
    ((takenFrame_within s).mono (by simp)).trans (w.mono (by simp))
  exact calm_event (f := fromP g) powered taken ((takenFrame_calm s).trans calm) m sub

end Offered

theorem forwardable_service {h : Hdr} (dst : h.dst ≠ 0) (payload : List Byte) :
    forwardable (frameWith h kindServiceRequest payload) = true := by
  simpa [forwardable, frameWith] using dst

theorem withForward_appendLog (f : Frame) (k : EventKind) (x : Subject) (d : Detail) (s : State) :
    withForward f (appendLog k x d s) = withForward f s := by
  have stamp : now (appendLog k x d s) = now s := by
    simp only [now, appendLog_log, appendRecord]
  rw [withForward, withForward, appendLog_cls, stamp]

/-- Settles O45: each action of the element that matches, and the default action where none does. -/
theorem serviceRequestForwarded : Obligations.ServiceRequestForwarded := by
  intro h payload s f placed powered dst room wait
  have crosses : forwardable f = true := forwardable_service dst payload
  have forwarded : filterFrame f (frameTaken s) = { frameTaken s with cls := placed } →
      ∃ t, exec (.serviceRequest h payload) s = .next t ∧ t.cls = placed ∧
        Silent s t ∧ Within [.receivers, .cls, .lines] s t := by
    intro acts
    obtain ⟨step, within⟩ := frame_event (cs := [.receivers, .cls, .lines]) powered acts (onlyCls_within placed) ⟨rfl, rfl⟩
    exact ⟨_, step, rfl, ⟨rfl, rfl⟩, within⟩
  have dropped : filterFrame f (frameTaken s) = frameTaken s →
      ∃ t, exec (.serviceRequest h payload) s = .next t ∧ Silent s t ∧ Within [.receivers, .lines] s t := by
    intro acts
    obtain ⟨step, within⟩ := frame_event (cs := [.receivers, .lines]) powered acts (.refl [] _) (.refl _)
    exact ⟨_, step, ⟨rfl, rfl⟩, within⟩
  have crossed : cross f (frameTaken s) = { frameTaken s with cls := placed } :=
    cross_of_room (s := frameTaken s) crosses room wait
  refine ⟨fun unmatched forward => forwarded ?_, fun unmatched drop => dropped ?_,
    fun e match' => ⟨fun action => forwarded ?_, fun action => ?logs, fun action quiescent => forwarded ?_,
      fun action gated => ?gated, fun action => dropped ?_⟩⟩
  · exact (filterFrame_default (s := frameTaken s) unmatched).trans ((if_pos forward).trans crossed)
  · exact (filterFrame_default (s := frameTaken s) unmatched).trans (if_neg (by simpa using drop))
  · rw [filterFrame_matched (s := frameTaken s) match' action, act, crossed]
  case logs =>
    have logged : filterFrame f (frameTaken s) = cross f (appendLog .frameLogged (.filterElement e)
        (.sourceKind h.src kindServiceRequest) (frameTaken s)) :=
      filterFrame_matched (s := frameTaken s) match' action
    rw [cross_of_room crosses (by rw [appendLog_cls]; exact room) (by rw [appendLog_mgmt]; exact wait),
      withForward_appendLog] at logged
    obtain ⟨step, within⟩ := frame_event (cs := [.receivers, .cls, .lines]) powered logged
      (((appendLog_within [] _ _ _ _).mono (by simp)).trans (onlyCls_within _))
      ((appendLog_calm ..).trans ⟨rfl, rfl⟩)
    exact ⟨_, step, rfl, appendLog_log .., by simp [settleLines], within⟩
  · exact (filterFrame_matched (s := frameTaken s) match' action).trans
      ((if_pos crosses).trans ((if_pos quiescent).trans (offerForward_of_room (s := frameTaken s) room wait)))
  case gated =>
    have logged : filterFrame f (frameTaken s) = appendLog .gatedDrop (.filterElement e)
        (.sourceDest h.src h.dst) (frameTaken s) :=
      (filterFrame_matched (s := frameTaken s) match' action).trans ((if_pos crosses).trans (if_neg gated))
    obtain ⟨step, within⟩ := frame_event (cs := [.receivers, .lines]) powered logged (appendLog_within [] _ _ _ _)
      (appendLog_calm ..)
    exact ⟨_, step, appendLog_log .., by simp [settleLines], within⟩
  · rw [filterFrame_matched (s := frameTaken s) match' action, act]

/-! ### Captures (R138, R139) -/

/-- R139: the Classifier with a frame captured in a slot by an element. -/
def withCapture (k : Fin 4) (e : Fin 32) (f : Frame) (s : State) : Classifier :=
  { s.cls with slots := s.cls.slots.set k (some { bytes := frameBytes f, stamp := now s, element := e }) }

/-- R134, R139: a frame offered to the filter list whose element captures it is in the slot, whole, and nothing else is
done with it. -/
theorem captured_event {f : Frame} {e : Fin 32} {k : Fin 4} {s : State} (powered : s.powered = true)
    (match' : matching s f = some e) (action : (s.cls.filter.get e).action = .capture k) :
    ∃ t, effect (fromP (filterFrame f)) s = .next t ∧ t.cls = withCapture k e f s ∧ Silent s t ∧
      Within [.receivers, .cls, .lines] s t := by
  have captures : filterFrame f (frameTaken s) = capture k e f (frameTaken s) :=
    filterFrame_matched (s := frameTaken s) match' action
  obtain ⟨step, within⟩ := frame_event (cs := [.receivers, .cls, .lines]) powered captures (capture_within k e f _) ⟨rfl, rfl⟩
  exact ⟨_, step, rfl, ⟨rfl, rfl⟩, within⟩

/-- Settles O46. -/
theorem framesCaptured : Obligations.FramesCaptured :=
  fun _ _ _ _ _ powered action =>
    ⟨fun _ match' => captured_event powered match' action, fun match' => captured_event powered match' action⟩

/-! ### The lifetime of a forward entry (R146) -/

/-- R146: the state without an entry of the S forward queue, no event of it logged or reported yet. -/
def withoutForward (n : Nat) (s : State) : State :=
  { s with cls := { s.cls with queue := s.cls.queue.eraseIdx n } }

theorem forwardExpiry_queued {n : Nat} {e : Forward} {s : State} (entry : s.cls.queue[n]? = some e)
    (queued : e.onLine = false) :
    forwardExpiry n s = queueReport e.frame.src 4 (.forwardExpired e.frame.dst e.frame.cls e.frame.payload.head?)
      (appendLog .forwardExpired (.stationAddress e.frame.dst) (.sourceClass e.frame.src e.frame.cls)
        (withoutForward n s)) := by
  simp only [forwardExpiry, entry, queued]
  rfl

/-- Settles O52. -/
theorem forwardLifetimeExpires : Obligations.ForwardLifetimeExpires := by
  intro n e s powered entry
  have entry' : (beginEvent s).cls.queue[n.val]? = some e := entry
  refine ⟨fun queued => ?_, fun onLine => ?_⟩
  · have acts := forwardExpiry_queued (s := beginEvent s) entry queued
    have without : Silent s (withoutForward n.val (beginEvent s)) := ⟨rfl, rfl⟩
    have calm : Calm (beginEvent s) (withoutForward n.val (beginEvent s)) := ⟨rfl, rfl⟩
    obtain ⟨step, within⟩ := calm_event (cs := [.cls, .lines]) powered
      ((beginEvent_within _ s).trans (forwardExpiry_within n.val _))
      (acts ▸ calm.trans ((appendLog_calm ..).trans (queueReport_calm ..)))
    rw [acts] at step within
    refine ⟨_, step, ?_, (logged_offered _ _ _ _ _ _ without).settled s, within⟩
    exact ((queueReport_within [] _ _ _ _).cls (by simp)).trans (appendLog_cls ..)
  · have acts : forwardExpiry n.val (beginEvent s) =
        { beginEvent s with cls := { s.cls with queue := s.cls.queue.set n.val { e with late := true } } } := by
      simp only [forwardExpiry, entry', onLine]
      rfl
    obtain ⟨step, within⟩ := calm_event (cs := [.cls, .lines]) (f := forwardExpiry n.val) powered
      ((beginEvent_within _ s).trans (forwardExpiry_within n.val _)) (by rw [acts]; exact ⟨rfl, rfl⟩)
    rw [acts] at step within
    exact ⟨_, step, rfl, ⟨rfl, rfl⟩, within⟩

/-! ### The answer window and the quiet-line timer (R130, R152) -/

/-- Settles O49. -/
theorem windowOpensAndLineQuiets : Obligations.WindowOpensAndLineQuiets := by
  refine ⟨fun x s powered txn => ?_, fun s powered running => ?_⟩
  · have txn' : (beginEvent s).sline.txn = some x := txn
    have acts : openWindow (beginEvent s) =
        setRx .s .hunt { beginEvent s with sline := { s.sline with txn := some { x with window := some 2 } } } := by
      rw [openWindow, txn']
      rfl
    obtain ⟨step, within⟩ := calm_event (cs := [.txn, .receivers, .lines]) (f := openWindow) powered
      ((beginEvent_within _ s).trans (openWindow_within _)) (by rw [acts]; exact ⟨rfl, rfl⟩)
    rw [acts] at step within
    exact ⟨_, step, rfl, rfl, rfl, rfl, rfl, ⟨rfl, rfl⟩, within⟩
  · have acts : quietExpiry (beginEvent s) =
        { beginEvent s with sline := { s.sline with mode := .quiet, quietTimer := none } } := if_pos running
    have same : ∀ b, Safety.same b s (quietExpiry (beginEvent s)) := by
      intro b
      rw [acts]
      cases b <;> simp [Safety.same, beginEvent]
    have settled : finish s (quietExpiry (beginEvent s)) = settleLines s (quietExpiry (beginEvent s)) :=
      finish_of_same_inputs (fun b _ => same b) (by rw [acts]; exact ⟨rfl, rfl⟩)
    refine ⟨settleLines s (quietExpiry (beginEvent s)), (effect_on quietExpiry powered).trans (by rw [settled]), ?_⟩
    have lines := fun b m => same_trans (same b) ((settleLines_within s (quietExpiry (beginEvent s))).only b m)
    rw [acts] at lines ⊢
    exact ⟨rfl, rfl, ⟨rfl, rfl⟩, rfl, rfl, lines⟩

end Sys2Proof.Safety

/-! PROOFS. Timers of the records and of the store: drains and recalls (sections 2.5, 3.3), door points (chapter 4), the
counter's wrap and the end of a store write (sections 9.1, 10.3). -/

namespace Sys2Proof.Safety

-- One proof at a time: the package as one text then compiles within the memory it is given.
set_option Elab.async false

open Sys2Proof.Machine

/-! ### A pass over the places of a table -/

section Pass

variable {n : Nat} {α : Type} {tbl : State → Tbl α n} {f : Fin n → State → State} {I : State → Prop}
  {Q : Fin n → α → α → Prop}

theorem foldl_each (keeps : ∀ i s, I s → I (f i s)) (others : ∀ i j s, j ≠ i → (tbl (f i s)).get j = (tbl s).get j)
    (each : ∀ i s, I s → Q i ((tbl s).get i) ((tbl (f i s)).get i)) (l : List (Fin n)) (once : l.Nodup) (s : State)
    (inv : I s) :
    I (l.foldl (fun s i => f i s) s) ∧ ∀ j, if j ∈ l then Q j ((tbl s).get j) ((tbl (l.foldl (fun s i => f i s) s)).get j)
      else (tbl (l.foldl (fun s i => f i s) s)).get j = (tbl s).get j := by
  induction l generalizing s with
  | nil => exact ⟨inv, fun j => rfl⟩
  | cons i l ih =>
    obtain ⟨absent, once'⟩ := List.nodup_cons.mp once
    obtain ⟨kept, rest⟩ := ih once' (f i s) (keeps i s inv)
    refine ⟨kept, fun j => ?_⟩
    have here := rest j
    rw [List.foldl_cons]
    by_cases first : j = i
    · subst first
      rw [if_neg absent] at here
      rw [if_pos (List.mem_cons_self), here]
      exact each j s inv
    · rw [others i j s first] at here
      simpa [first] using here

/-- A pass that deals at each place of a table with the record there alone. -/
theorem forEach_each (keeps : ∀ i s, I s → I (f i s)) (others : ∀ i j s, j ≠ i → (tbl (f i s)).get j = (tbl s).get j)
    (each : ∀ i s, I s → Q i ((tbl s).get i) ((tbl (f i s)).get i)) {s : State} (inv : I s) :
    I (forEach n f s) ∧ ∀ j, Q j ((tbl s).get j) ((tbl (forEach n f s)).get j) := by
  obtain ⟨kept, all⟩ := foldl_each keeps others each (List.finRange n) (List.nodup_finRange n) s inv
  refine ⟨kept, fun j => ?_⟩
  have here := all j
  rw [if_pos (List.mem_finRange j)] at here
  exact here

end Pass

/-! ### The wrap of the counter, and the end of a store write (R160, R171) -/

theorem mem_writeItem_self (x : StoreItem) (store : List StoreItem) : x ∈ writeItem x store := by
  induction store with
  | nil => exact List.mem_singleton_self x
  | cons y rest ih =>
    rw [writeItem]
    split
    · exact List.mem_cons_self
    · split
      · exact List.mem_cons_self
      · exact List.mem_cons_of_mem _ ih

/-- R171: an item written leaves each item of another place in the store. -/
theorem mem_writeItem_of_ne {x y : StoreItem} (other : storePlace y ≠ storePlace x) {store : List StoreItem}
    (held : x ∈ store) : x ∈ writeItem y store := by
  induction store with
  | nil => cases held
  | cons z rest ih =>
    rw [writeItem]
    split
    · exact List.mem_cons_of_mem _ held
    · rcases List.mem_cons.mp held with rfl | later
      · rw [if_neg other]
        exact List.mem_cons_self
      · split
        · exact List.mem_cons_of_mem _ later
        · exact List.mem_cons_of_mem _ (ih later)

theorem mem_writeItems_of_held {x : StoreItem} {items store : List StoreItem}
    (own : ∀ y ∈ items, storePlace y = storePlace x → y = x) (held : x ∈ store) : x ∈ writeItems items store := by
  induction items generalizing store with
  | nil => exact held
  | cons y items ih =>
    refine ih (fun z later => own z (List.mem_cons_of_mem _ later)) ?_
    by_cases place : storePlace y = storePlace x
    · rw [own y List.mem_cons_self place]
      exact mem_writeItem_self x store
    · exact mem_writeItem_of_ne place held

/-- R171: each item of a write that has a place of its own in it is in the store at the write's end. -/
theorem mem_writeItems {x : StoreItem} {items : List StoreItem} (store : List StoreItem)
    (own : ∀ y ∈ items, storePlace y = storePlace x → y = x) (written : x ∈ items) : x ∈ writeItems items store := by
  induction items generalizing store with
  | nil => cases written
  | cons y items ih =>
    have own' : ∀ z ∈ items, storePlace z = storePlace x → z = x := fun z later => own z (List.mem_cons_of_mem _ later)
    rcases List.mem_cons.mp written with rfl | later
    · exact mem_writeItems_of_held (items := items) own' (mem_writeItem_self x store)
    · exact ih (writeItem y store) own' later

/-- R171: the Management Unit with a write ended. -/
def writeEnded (w : StoreWrite) (rest : List StoreWrite) (s : State) : State :=
  { s with mgmt := { s.mgmt with store := writeItems w.items s.mgmt.store, writes := rest } }

theorem endWrite_noReply {w : StoreWrite} {rest : List StoreWrite} {s : State} (writes : s.mgmt.writes = w :: rest)
    (none' : w.reply = none) : endWrite s = writeEnded w rest s := by
  simp only [endWrite, writes, none']
  rfl

theorem endWrite_replied {w : StoreWrite} {rest : List StoreWrite} {s : State} {dst sub : Byte} {r : Reply} {index : Nat}
    (writes : s.mgmt.writes = w :: rest) (some' : w.reply = some (dst, sub, r, index)) :
    endWrite s = reply dst sub r index [] (writeEnded w rest s) := by
  simp only [endWrite, writes, some']
  rfl

theorem endWrite_calm (s : State) : Calm s (endWrite s) := by
  unfold endWrite
  split
  · exact .refl s
  · extract_lets x u
    have written : Calm s u := ⟨rfl, rfl⟩
    split
    · exact written.trans (reply_calm ..)
    · exact written

/-- Settles O60. -/
theorem wrapAndStoreWriteEnd : Obligations.WrapAndStoreWriteEnd := by
  refine ⟨fun s powered => ?_, fun w rest s powered writes => ?_⟩
  · have same : ∀ b, same b s (wrapStamp (beginEvent s)) := fun b => by
      cases b <;> simp [Safety.same, wrapStamp, beginEvent]
    have calm : Calm (beginEvent s) (wrapStamp (beginEvent s)) := ⟨appendLog_regime .., appendLog_notes_owners ..⟩
    have settled : finish s (wrapStamp (beginEvent s)) = settleLines s (wrapStamp (beginEvent s)) :=
      finish_of_same_inputs (fun b _ => same b) calm
    refine ⟨settleLines s (wrapStamp (beginEvent s)), (effect_on wrapStamp powered).trans (by rw [settled]),
      appendLog_log .., ?_, calm.regime, fun b m => same_trans (same b) ((settleLines_within s _).only b m)⟩
    simp [settleLines, wrapStamp, beginEvent]
  · have writes' : (beginEvent s).mgmt.writes = w :: rest := writes
    obtain ⟨step, within⟩ := calm_event (cs := [.mgmt, .lines]) (f := endWrite) powered
      ((beginEvent_within _ s).trans (endWrite_within _)) (endWrite_calm _)
    have mgmt : (settleLines s (endWrite (beginEvent s))).mgmt =
        { s.mgmt with store := writeItems w.items s.mgmt.store, writes := rest } := by
      cases replied : w.reply with
      | none => rw [endWrite_noReply writes' replied]; rfl
      | some r =>
        obtain ⟨dst, sub, r, index⟩ := r
        rw [endWrite_replied writes' replied]
        exact (reply_within [] _ _ _ _ _ _).mgmt (by simp)
    have written : Silent s (writeEnded w rest (beginEvent s)) := ⟨rfl, rfl⟩
    refine ⟨_, step, mgmt, fun x mem own => ?_, fun none' => ?_, fun dst sub r index some' => ?_, within⟩
    · rw [mgmt]
      exact mem_writeItems s.mgmt.store own mem
    · rw [endWrite_noReply writes' none']
      exact written
    · rw [endWrite_replied writes' some']
      exact reply_offered dst sub r index [] written

/-! ### Drains and overdue cars (R46, R63) -/

theorem drainStair_eq {st : Fin 4} {e : Load} {rest : List Load} {s : State}
    (loads : (s.seq.stairs.get st).loads = e :: rest) :
    drainStair st s = setStair st { s.seq.stairs.get st with
      loads := rest, committed := (s.seq.stairs.get st).committed - e.share } s := by
  simp only [drainStair, loads]

theorem placeCar_lifts (i : Fin 8) (c c' : Car) (s : State) :
    (placeCar i c c' s).lifts = { s.lifts with cars := s.lifts.cars.set i (some c') } := by
  unfold placeCar
  extract_lets t
  have placed : t.lifts = { s.lifts with cars := s.lifts.cars.set i (some c') } := noteOnset_lifts ..
  split
  · exact placed
  · exact (noteOwner_lifts ..).trans placed

theorem placeCar_silent (i : Fin 8) (c c' : Car) {s t : State} (h : Silent s t) : Silent s (placeCar i c c' t) := by
  obtain ⟨log, queue⟩ := h
  unfold placeCar
  extract_lets u
  have placed : u.log = t.log ∧ u.port = t.port := ⟨noteOnset_log .., noteOnset_port ..⟩
  split <;> exact ⟨by simp [placed, log], by simp [placed, queue]⟩

/-- R67, R74: the record and the report of a car, its bank as it is. -/
theorem announceCar_offered (i : Fin 8) (c : Car) {s t : State} (h : Silent s t) (banks : t.lifts.banks = s.lifts.banks) :
    LoggedOffered .carState (.car i) (.car c.state c.target c.compromised) 0 5
      (.car i c.bank c.index c.state c.target c.reported c.compromised (s.lifts.banks.get c.bank).choice) s
      (announceCar i c t) := by
  rw [announceCar, banks]
  exact logged_offered _ _ _ _ _ _ h

theorem changeCar_absent (f : Car → Car) {i : Fin 8} {s : State} (absent : s.lifts.cars.get i = none) :
    changeCar i f s = s := by
  simp only [changeCar, absent]

theorem changeCar_lifts (f : Car → Car) {i : Fin 8} {c : Car} {s : State} (car : s.lifts.cars.get i = some c) :
    (changeCar i f s).lifts = { s.lifts with cars := s.lifts.cars.set i (some (f c)) } := by
  simp only [changeCar, car]
  split
  · rw [(announceCar_within [] i _ _).lifts (by simp), placeCar_lifts]
  · exact placeCar_lifts ..

/-- R67, R74: a change of a car's state is logged and reported. -/
theorem changeCar_announces {f : Car → Car} {i : Fin 8} {c : Car} {s : State} (car : s.lifts.cars.get i = some c)
    (changed : (f c).state ≠ c.state) : changeCar i f s = announceCar i (f c) (placeCar i c (f c) s) := by
  simp only [changeCar, car]
  rw [if_pos (.inl changed)]

/-- Settles O53. -/
theorem drainsAndOverdueCars : Obligations.DrainsAndOverdueCars := by
  refine ⟨fun st e rest s powered loads => ?_, fun i c s powered car recalling => ?_⟩
  · have acts := drainStair_eq (s := beginEvent s) loads
    have settled : finish s (drainStair st (beginEvent s)) = settleLines s (drainStair st (beginEvent s)) := by
      rw [acts]
      exact finish_same ⟨rfl, rfl, rfl, rfl, rfl, rfl, fun _ => rfl⟩ rfl
    refine ⟨settleLines s (drainStair st (beginEvent s)), (effect_on (drainStair st) powered).trans (by rw [settled]), ?_,
      ?_, ((beginEvent_within _ s).trans ((drainStair_within st _).mono (by simp))).trans
        ((settleLines_within s _).mono (by simp))⟩ <;> rw [acts]
    · rfl
    · exact ⟨rfl, rfl⟩
  · have car' : (beginEvent s).lifts.cars.get i = some c := car
    have overdue : toKept .overdue c = if c.state = .recalling then toKept .overdue c else { c with timer := none } :=
      (if_pos recalling).symm
    have changed : (toKept .overdue c).state ≠ c.state := by
      rw [recalling]
      exact fun h => nomatch h
    have acts : recallExpiry i (beginEvent s) =
        announceCar i (toKept .overdue c) (placeCar i c (toKept .overdue c) (beginEvent s)) := by
      rw [overdue] at changed ⊢
      exact changeCar_announces car' changed
    refine ⟨_, effect_on (recallExpiry i) powered, ?_, ?_,
      ((beginEvent_within _ s).trans ((recallExpiry_within i _).mono (cs := [.lifts, .early, .lines]) (by simp))).finished⟩
    · rw [finish_lifts, acts, (announceCar_within [] i _ _).lifts (by simp), placeCar_lifts]
      rfl
    · rw [acts]
      have placed := placeCar_silent i c (toKept .overdue c) (s := s) (t := beginEvent s) ⟨rfl, rfl⟩
      exact (announceCar_offered i (toKept .overdue c) placed (by rw [placeCar_lifts]; rfl)).finished s

/-! ### Door points: the mismatch, test and relock timers (R81, R82, R85, R89) -/

theorem logDoorFault_calm (i : Fin 128) (old new : DoorPoint) (cause : DoorFaultCause) (s : State) :
    Calm s (logDoorFault i old new cause s) :=
  (appendLog_calm ..).ite ((appendLog_calm ..).ite (.refl s))

theorem changePoint_calm (i : Fin 128) (cause : DoorFaultCause) (old new : DoorPoint) (s : State) :
    Calm s (changePoint i cause old new s) := by
  have placed : Calm s (setPoint i new s) := ⟨rfl, rfl⟩
  have logged := placed.trans (logDoorFault_calm i old new cause _)
  exact (logged.trans (queueReport_calm ..)).ite logged

/-- R81: the record of a released point at the relock expiry, or as its test ends. -/
def relocked (s : State) (p : DoorPoint) : DoorPoint := if closedNow s p then command s .locked p else holdOpen p

theorem relockPoint_doors (i : Fin 128) (p : DoorPoint) (s : State) :
    (relockPoint i p s).doors = { s.doors with points := s.doors.points.set i (some (relocked s p)) } := by
  unfold relockPoint relocked
  split
  · exact changePoint_doors ..
  · rw [(reportPoint_within [] i _ _).doors (by simp), appendLog_doors]
    rfl

theorem relockPoint_calm (i : Fin 128) (p : DoorPoint) (s : State) : Calm s (relockPoint i p s) := by
  have placed : Calm s (setPoint i (holdOpen p) s) := ⟨rfl, rfl⟩
  exact (changePoint_calm ..).ite ((placed.trans (appendLog_calm ..)).trans (queueReport_calm ..))

/-- R81: what the relock of a released point leaves, by whether its door is closed. -/
structure Relocked (closed : Bool) (p q : DoorPoint) : Prop where
  whenClosed : closed = true → q.commanded = .locked ∧ q.pending = p.pending
  whenOpen : closed = false → q.commanded = .released ∧ q.pending = true ∧ q.mismatch = none ∧
    q.supervision = if p.supervision = .fault then .fault else .heldOpen
  test : q.test = p.test

theorem relocked_spec (s : State) {p : DoorPoint} (released : p.commanded = .released) :
    Relocked (closedNow s p) p (relocked s p) := by
  unfold relocked
  split
  · next closed =>
    have keeps := command_keeps s .locked p
    exact ⟨fun _ => ⟨keeps.commanded, keeps.pending⟩, fun opened => by simp [opened] at closed, keeps.test⟩
  · next opened => exact ⟨fun closed => absurd closed opened, fun _ => ⟨released, rfl, rfl, rfl⟩, rfl⟩

theorem closedNow_congr {s t : State} (stations : t.sline.stations = s.sline.stations) (p : DoorPoint) :
    closedNow t p = closedNow s p := by
  simp only [closedNow, stationLost, stationAt, stations]

/-- R85: a mismatch timer takes a point to FAULT, logged and reported. -/
theorem mismatchExpiry_faults {i : Fin 128} {p : DoorPoint} {s : State} (inUse : s.doors.points.get i = some p)
    (mismatch : p.supervision = .mismatch) :
    let q := { p with supervision := .fault, mismatch := none }
    mismatchExpiry i s = reportPoint i q
      (appendLog .doorFault (.doorPoint i) (.doorFault .feedback p.commanded (p.feedback.map (·.lock))) (setPoint i q s)) := by
  intro q
  have others : p.supervision ≠ .fault := by rw [mismatch]; exact fun h => nomatch h
  have reports : reportable p.supervision q.supervision = true := by rw [mismatch]; rfl
  have faults : logDoorFault i p q .feedback (setPoint i q s) = appendLog .doorFault (.doorPoint i)
      (.doorFault .feedback p.commanded (p.feedback.map (·.lock))) (setPoint i q s) := if_pos ⟨rfl, others⟩
  rw [← faults]
  simp only [mismatchExpiry, inUse]
  exact (if_pos mismatch).trans (if_pos reports)

/-- R89: a test timer of a released point outside ACTIVE relocks it. -/
theorem testExpiry_relocks {i : Fin 128} {p : DoorPoint} {s : State} (inUse : s.doors.points.get i = some p)
    (test : p.test.isSome = true) (released : p.commanded = .released) (quiescent : s.regime.state = .quiescent) :
    testExpiry i s = relockPoint i { p with test := none } (setPoint i { p with test := none } s) := by
  have running : p.test ≠ none := by
    rintro stopped
    rw [stopped] at test
    cases test
  simp only [testExpiry, inUse]
  rw [if_neg running]
  exact if_pos ⟨quiescent, released⟩

/-- Settles O54. -/
theorem mismatchAndTestExpire : Obligations.MismatchAndTestExpire := by
  refine ⟨fun i p s powered inUse mismatch => ?_, fun i p s powered inUse test released quiescent => ?_⟩
  · have acts := mismatchExpiry_faults (s := beginEvent s) inUse mismatch
    have w := (beginEvent_within _ s).trans ((mismatchExpiry_within i _).mono (cs := [.doors, .early, .lines]) (by simp))
    refine ⟨_, effect_on (mismatchExpiry i) powered, ?_, ?_, w.finished⟩ <;> rw [acts]
    · rw [finish_doors, (reportPoint_within [] i _ _).doors (by simp), appendLog_doors]
      rfl
    · have placed : Silent s (setPoint i { p with supervision := .fault, mismatch := none } (beginEvent s)) := ⟨rfl, rfl⟩
      exact (logged_offered _ _ _ _ _ _ placed).finished s
  · have acts := testExpiry_relocks (s := beginEvent s) inUse test released quiescent
    have w := (beginEvent_within _ s).trans ((testExpiry_within i _).mono (cs := [.doors, .early, .lines]) (by simp))
    set u := setPoint i { p with test := none } (beginEvent s) with ended
    have spec := relocked_spec u (p := { p with test := none }) released
    have doors : (testExpiry i (beginEvent s)).doors =
        { u.doors with points := u.doors.points.set i (some (relocked u { p with test := none })) } := by
      rw [acts, relockPoint_doors]
    refine ⟨_, relocked u { p with test := none }, effect_on (testExpiry i) powered, ?_, spec.test, spec.whenClosed,
      spec.whenOpen, fun j other => ?_, ?_, w.finished⟩ <;> rw [finish_doors, doors]
    · exact Tbl.get_set_self ..
    · rw [Tbl.get_set_ne _ _ other.symm]
      exact Tbl.get_set_ne _ _ other.symm
    · rfl

theorem setRegime_regime (st : Regime) (cause : RegimeCause) (s : State) :
    (setRegime st cause s).regime = { s.regime with state := st } := by
  rw [setRegime, queueReport, offer_regime, appendLog_regime]
  rfl

/-- R27: the second of the two flags ends RESTORING. -/
theorem setRelockDone_regime {s : State} (clear : s.regime.relockDone = false) :
    (setRelockDone s).regime = { s.regime with
      relockDone := true
      state := if s.regime.state = .restoring ∧ s.regime.allClearDone = true then .quiescent else s.regime.state } := by
  unfold setRelockDone
  rw [if_neg (by simp [clear])]
  simp only
  split
  · exact setRegime_regime ..
  · rfl

/-- R81: the relock expiry at one door point. -/
def relockAt (i : Fin 128) (s : State) : State :=
  match s.doors.points.get i with
  | some p => if p.commanded = .released then relockPoint i p s else s
  | none => s

theorem relockAll_eq (s : State) :
    relockAll s = forEach 128 relockAt { s with doors := { s.doors with relock := none } } := rfl

theorem relockAt_cases (i : Fin 128) (s : State) :
    ((∀ p, s.doors.points.get i = some p → p.commanded = .locked) ∧ relockAt i s = s) ∨
      ∃ p, s.doors.points.get i = some p ∧ p.commanded = .released ∧ relockAt i s = relockPoint i p s := by
  unfold relockAt
  cases inUse : s.doors.points.get i with
  | none => exact .inl ⟨fun p h => (nomatch h), rfl⟩
  | some p =>
    cases commanded : p.commanded with
    | locked => exact .inl ⟨fun q same => by cases same; exact commanded, if_neg (by simp [commanded])⟩
    | released => exact .inr ⟨p, rfl, commanded, if_pos commanded⟩

/-- What the relock expiry has kept at any point of its pass. -/
structure RelockKept (s t : State) : Prop where
  relock : t.doors.relock = none
  regime : t.regime = s.regime
  stations : t.sline.stations = s.sline.stations

theorem relockAt_kept (i : Fin 128) {s t : State} (h : RelockKept s t) : RelockKept s (relockAt i t) := by
  obtain ⟨relock, regime, stations⟩ := h
  rcases relockAt_cases i t with ⟨-, same⟩ | ⟨p, -, -, relocks⟩
  · rw [same]
    exact ⟨relock, regime, stations⟩
  · rw [relocks]
    exact ⟨by rw [relockPoint_doors]; exact relock, (relockPoint_calm i p t).regime.trans regime,
      ((relockPoint_within i p t).stations (by simp)).trans stations⟩

/-- R81: what the relock expiry makes of a door point. -/
def RelockMade (closed : DoorPoint → Bool) (old new : Option DoorPoint) : Prop :=
  (old = none → new = none) ∧ ∀ p, old = some p → ∃ q, new = some q ∧ (p.commanded = .locked → q = p) ∧
    (p.commanded = .released → Relocked (closed p) p q)

theorem relockAt_makes (i : Fin 128) {s t : State} (h : RelockKept s t) :
    RelockMade (closedNow s) (t.doors.points.get i) ((relockAt i t).doors.points.get i) := by
  rcases relockAt_cases i t with ⟨locked, same⟩ | ⟨p, inUse, released, relocks⟩
  · rw [same]
    exact ⟨id, fun p inUse => ⟨p, inUse, fun _ => rfl, fun released => by simp [locked p inUse] at released⟩⟩
  · rw [relocks, relockPoint_doors, inUse]
    refine ⟨fun none' => (nomatch none'), fun p' same => ?_⟩
    cases same
    refine ⟨relocked t p, Tbl.get_set_self .., fun locked => by simp [locked] at released, fun _ => ?_⟩
    rw [← closedNow_congr h.stations]
    exact relocked_spec t released

theorem relockAt_others {i j : Fin 128} (s : State) (other : j ≠ i) :
    (relockAt i s).doors.points.get j = s.doors.points.get j := by
  rcases relockAt_cases i s with ⟨-, same⟩ | ⟨p, -, -, relocks⟩
  · rw [same]
  · rw [relocks, relockPoint_doors]
    exact Tbl.get_set_ne _ _ other.symm

theorem relockAll_points (s : State) : RelockKept s (relockAll s) ∧
    ∀ i, RelockMade (closedNow s) (s.doors.points.get i) ((relockAll s).doors.points.get i) := by
  have pass := forEach_each (f := relockAt) (tbl := fun s => s.doors.points) (I := RelockKept s)
    (Q := fun _ => RelockMade (closedNow s)) (fun i _ h => relockAt_kept i h)
    (fun _ _ t other => relockAt_others t other) (fun i _ h => relockAt_makes i h)
    (s := { s with doors := { s.doors with relock := none } }) ⟨rfl, rfl, rfl⟩
  rw [relockAll_eq s]
  generalize forEach 128 relockAt _ = t at pass ⊢
  exact pass

/-- Settles O55. -/
theorem relockExpiryLocksClosedDoors : Obligations.RelockExpiryLocksClosedDoors := by
  intro s powered running clear
  obtain ⟨⟨relock, regime, -⟩, points⟩ := relockAll_points (beginEvent s)
  have acts : relockExpiry (beginEvent s) = setRelockDone (relockAll (beginEvent s)) := if_pos running
  have w := (beginEvent_within _ s).trans
    ((relockExpiry_within _).mono (cs := [.doors, .ann, .relock, .early, .lines]) (by simp))
  have doors : (relockExpiry (beginEvent s)).doors = (relockAll (beginEvent s)).doors := by
    rw [acts]
    exact (setRelockDone_within _).doors (by simp)
  have flags : (relockExpiry (beginEvent s)).regime = { s.regime with
      relockDone := true
      state := if s.regime.state = .restoring ∧ s.regime.allClearDone = true then .quiescent else s.regime.state } := by
    rw [acts, setRelockDone_regime (by rw [regime]; exact clear), regime]
    rfl
  refine ⟨_, effect_on relockExpiry powered, ?_, ?_, ?_, ?_, fun i absent => ?_, fun i p inUse => ?_, w.finished⟩
  · rw [finish_regime, flags]
  · rw [finish_doors, doors, relock]
  · rw [finish_regime, flags]
  · rw [finish_regime, flags]
  · rw [finish_doors, doors]
    exact (points i).1 absent
  · rw [finish_doors, doors]
    obtain ⟨-, made⟩ := points i
    obtain ⟨q, held, locked, relocks⟩ := made p inUse
    exact ⟨q, held, locked, fun released => (relocks released).whenClosed, fun released => (relocks released).whenOpen⟩

/-! ### LIFT RELEASE (R72) -/

theorem changeCar_others (f : Car → Car) {i j : Fin 8} (s : State) (other : j ≠ i) :
    (changeCar i f s).lifts.cars.get j = s.lifts.cars.get j := by
  cases car : s.lifts.cars.get i with
  | none => rw [changeCar_absent f car]
  | some c =>
    rw [changeCar_lifts f car]
    exact Tbl.get_set_ne _ _ other.symm

theorem changeCar_own (f : Car → Car) (i : Fin 8) (s : State) :
    (changeCar i f s).lifts.cars.get i = (s.lifts.cars.get i).map f := by
  cases car : s.lifts.cars.get i with
  | none => rw [changeCar_absent f car, car]; rfl
  | some c =>
    rw [changeCar_lifts f car]
    exact Tbl.get_set_self ..

theorem changeCar_banks (f : Car → Car) (i : Fin 8) (s : State) : (changeCar i f s).lifts.banks = s.lifts.banks := by
  cases car : s.lifts.cars.get i with
  | none => rw [changeCar_absent f car]
  | some c => rw [changeCar_lifts f car]

/-- A change made at every car in use, and at no bank. -/
theorem changeCars_lifts (f : Car → Car) (s : State) :
    let t := forEach 8 (fun i => changeCar i f) s
    t.lifts.banks = s.lifts.banks ∧ ∀ i, t.lifts.cars.get i = (s.lifts.cars.get i).map f :=
  forEach_each (f := fun i => changeCar i f) (tbl := fun s => s.lifts.cars) (I := fun t => t.lifts.banks = s.lifts.banks)
    (Q := fun _ old new => new = old.map f) (fun i t h => (changeCar_banks f i t).trans h)
    (fun _ _ t other => changeCar_others f t other) (fun i t _ => changeCar_own f i t) rfl

theorem liftRelease_active (b : Fin 2) {s : State} (active : s.regime.state = .active) :
    liftRelease b s = (.regimeActive, s) := if_pos active

theorem liftRelease_lifts (b : Fin 2) {s : State} (outside : s.regime.state ≠ .active) :
    (liftRelease b s).2.lifts.banks = s.lifts.banks ∧ ∀ i, (liftRelease b s).2.lifts.cars.get i =
      (s.lifts.cars.get i).map fun c => if releasable b c then freeCar c else c := by
  have freed : (liftRelease b s).2 = forEach 8 (fun i => changeCar i fun c => if releasable b c then freeCar c else c) s := by
    rw [liftRelease, if_neg outside]
  have changed := changeCars_lifts (fun c => if releasable b c then freeCar c else c) s
  rw [freed]
  generalize forEach 8 _ s = t at changed ⊢
  exact changed

/-- R48: a command answered and not carried out. -/
theorem command_onlyAnswered {h : Hdr} {s : State} (o : BrigadeOpen h s) (payload : List Byte) {act : State → State}
    {code : Option Byte} {a : Answer}
    (acts : act (frameTaken s) = answerCommand h.src code a (frameTaken s) (frameTaken s)) :
    ∃ t, effect (fromP (brigade h payload act)) s = .next t ∧ Answered h.src code a s t ∧
      Within [.receivers, .lines] s t := by
  have settled := finish_answerCommand h.src code a (frameTaken s) (s := s) ((takenFrame_within s).mono (by simp))
    rfl rfl rfl
  refine ⟨_, brigade_carriedOut o payload act, ?_⟩
  rw [acts, settled]
  exact ⟨answerCommand_answered h.src code a (frameTaken s) (takenFrame_silent s),
    ((takenFrame_within s).mono (by simp)).trans (((answerCommand_within [] _ _ _ _ _).mono (by simp)).trans
      ((settleLines_within s _).mono (by simp)))⟩

/-- Settles O30. -/
theorem liftReleaseFreesTheBank : Obligations.LiftReleaseFreesTheBank := by
  intro h bank tail s o
  refine ⟨fun outside => ?_, fun active => ?_⟩
  · obtain ⟨banks, cars⟩ := liftRelease_lifts bank (s := frameTaken s) outside
    set u := ownerCommand h.src .liftRelease (liftRelease bank) (frameTaken s) with done
    have lifts : u.lifts = (liftRelease bank (frameTaken s)).2.lifts :=
      (answerCommand_within [] _ _ _ _ _).lifts (by simp)
    have car : ∀ i c, s.lifts.cars.get i = some c →
        (finish s u).lifts.cars.get i = some (if releasable bank c then freeCar c else c) := by
      intro i c held
      have held' : (frameTaken s).lifts.cars.get i = some c := held
      rw [finish_lifts, lifts, cars, held']
      rfl
    refine ⟨_, brigade_carriedOut o _ _, fun i c held own free lost => ?_, fun i c held other => ?_, fun i absent => ?_,
      ?_, ?_⟩
    · rw [car i c held, if_pos (by simp [releasable, own, free, lost])]
      rfl
    · rw [car i c held, if_neg]
      rcases other with other | free | lost <;> simp [releasable, *]
    · have absent' : (frameTaken s).lifts.cars.get i = none := absent
      rw [finish_lifts, lifts, cars, absent']
      rfl
    · rw [finish_lifts, lifts, banks]
      rfl
    · exact (((takenFrame_within s).mono (by simp)).trans
        ((ownerCommand_within _ h.src .liftRelease (liftRelease_within bank) (frameTaken s)).mono
          (cs := [.receivers, .lifts, .early, .lines]) (by simp))).finished
  · refine command_onlyAnswered o _ ?_
    rw [ownerCommand, liftRelease_active bank (s := frameTaken s) active]
    rfl

/-! ### The next transaction (R144, R149 to R153) -/

section Next

variable {s u : State}

theorem nextTxn_chosen (idle : s.sline.txn = none) (own : s.addrs.own ≠ 0) (chosen : chooseTransaction s = u)
    (sent : u.sline.txn.isSome = true) : nextTxn s = transmitS u := by
  rw [nextTxn, if_neg (by simpa [idle] using own), chosen]
  exact if_pos sent

theorem chooseTransaction_forward {i : Nat} {e : Forward} (queued : firstQueued s = some (i, e))
    (burst : s.sline.burst < s.params.burstLimit) : chooseTransaction s = sendForward i e s := by
  simp only [chooseTransaction, if_pos burst, queued]

theorem noForward (h : firstQueued s = none ∨ s.params.burstLimit ≤ s.sline.burst) :
    (if s.sline.burst < s.params.burstLimit then firstQueued s else none) = none := by
  split
  · exact h.resolve_right (by omega)
  · rfl

theorem chooseTransaction_early {i : Fin 48} {rest : List (Fin 48)}
    (noForward' : firstQueued s = none ∨ s.params.burstLimit ≤ s.sline.burst) (early : s.sline.early = i :: rest) :
    chooseTransaction s = sendPoll i s := by
  simp only [chooseTransaction, noForward noForward', early]

theorem chooseTransaction_rotation {i : Fin 48}
    (noForward' : firstQueued s = none ∨ s.params.burstLimit ≤ s.sline.burst) (early : s.sline.early = [])
    (next : rotationNext s = some i) :
    chooseTransaction s = sendPoll i { s with sline := { s.sline with pointer := some i } } := by
  simp only [chooseTransaction, noForward noForward', early, next]

/-- R153: the transaction that polls a record in use. -/
def pollOf (i : Fin 48) (x : Station) (s : State) : Txn :=
  { kind := .poll i, dest := x.address, sent := .poll (pollContent s x), window := none, candidate := false }

theorem sendPoll_eq {i : Fin 48} {x : Station} (inUse : s.sline.stations.get i = some x) :
    sendPoll i s = { s with sline := { s.sline with
      early := s.sline.early.erase i, burst := 0, txn := some (pollOf i x s) } } := by
  simp only [sendPoll, inUse]
  rfl

theorem transmitS_within (s : State) : Within [.receivers] s (transmitS s) := setTrunk_within .s _ s

end Next

/-- Settles O48, by what is chosen. -/
theorem nextTransactionChosen : Obligations.NextTransactionChosen := by
  intro s powered idle own
  refine ⟨fun i e queued burst => ?forward, fun i rest x noForward' early inUse => ?early,
    fun i x noForward' early next inUse => ?rotation⟩
  case forward =>
    have acts : nextTxn (beginEvent s) = transmitS (sendForward i e (beginEvent s)) :=
      nextTxn_chosen (s := beginEvent s) idle own (chooseTransaction_forward queued burst) rfl
    obtain ⟨step, within⟩ := calm_event (cs := [.txn, .cls, .receivers, .lines]) (bs := [.txn, .cls, .receivers])
      (f := nextTxn) powered ((beginEvent_within _ s).trans (by
        rw [acts]
        exact ((sendForward_within i e _).mono (by simp)).trans ((transmitS_within _).mono (by simp))))
      (by rw [acts]; exact ⟨rfl, rfl⟩)
    rw [acts] at step within
    exact ⟨_, step, rfl, rfl, rfl, rfl, rfl, ⟨rfl, rfl⟩, within⟩
  case early =>
    have acts : nextTxn (beginEvent s) = transmitS (sendPoll i (beginEvent s)) :=
      nextTxn_chosen (s := beginEvent s) idle own (chooseTransaction_early noForward' early)
        (by rw [sendPoll_eq (s := beginEvent s) inUse]; rfl)
    obtain ⟨step, within⟩ := calm_event (cs := [.txn, .early, .receivers, .lines]) (bs := [.txn, .early, .receivers])
      (f := nextTxn) powered ((beginEvent_within _ s).trans (by
        rw [acts]
        exact ((sendPoll_within i _).mono (by simp)).trans ((transmitS_within _).mono (by simp))))
      (by rw [acts, sendPoll_eq (s := beginEvent s) inUse]; exact ⟨rfl, rfl⟩)
    rw [acts, sendPoll_eq (s := beginEvent s) inUse] at step within
    have taken : s.sline.early.erase i = rest := by rw [early, List.erase_cons_head]
    exact ⟨_, step, rfl, rfl, taken, rfl, ⟨rfl, rfl⟩, within⟩
  case rotation =>
    let u : State := { beginEvent s with sline := { s.sline with pointer := some i } }
    have acts : nextTxn (beginEvent s) = transmitS (sendPoll i u) :=
      nextTxn_chosen (s := beginEvent s) idle own (chooseTransaction_rotation noForward' early next)
        (by rw [sendPoll_eq (s := u) inUse]; rfl)
    have none' : s.sline.early.erase i = [] := by rw [early]; rfl
    obtain ⟨step, within⟩ := calm_event (cs := [.txn, .receivers, .lines]) (bs := [.txn, .receivers])
      (f := nextTxn) powered ((beginEvent_within _ s).trans (by
        rw [acts, sendPoll_eq (s := u) inUse]
        refine Within.trans ?_ ((transmitS_within _).mono (by simp))
        exact .of_only (fun b hb => by cases b <;> simp_all [Safety.same, u, beginEvent]) rfl rfl rfl))
      (by rw [acts, sendPoll_eq (s := u) inUse]; exact ⟨rfl, rfl⟩)
    rw [acts, sendPoll_eq (s := u) inUse] at step within
    exact ⟨_, step, rfl, rfl, rfl, none', ⟨rfl, rfl⟩, within⟩

/-! ### LOST cars and the reports of a lift interface (R64, R65) -/

/-- Every car that was LOST is LOST. -/
def StaysLost (s t : State) : Prop :=
  ∀ i c, s.lifts.cars.get i = some c → c.state = .lost → ∃ d, t.lifts.cars.get i = some d ∧ d.state = .lost

namespace StaysLost

variable {s t u : State}

theorem refl (s : State) : StaysLost s s := fun _ c car lost => ⟨c, car, lost⟩

theorem trans (h : StaysLost s t) (k : StaysLost t u) : StaysLost s u := fun i c car lost => by
  obtain ⟨d, car', lost'⟩ := h i c car lost
  exact k i d car' lost'

theorem of_same (h : t.lifts = s.lifts) : StaysLost s t := fun _ c car lost => ⟨c, by rw [h]; exact car, lost⟩

theorem ite {p : Prop} [Decidable p] (h : StaysLost s t) (k : StaysLost s u) : StaysLost s (if p then t else u) := by
  split
  · exact h
  · exact k

theorem foldl {α : Type} {f : State → α → State} (h : ∀ s a, StaysLost s (f s a)) (l : List α) (s : State) :
    StaysLost s (l.foldl f s) := by
  induction l generalizing s with
  | nil => exact .refl s
  | cons a l ih => exact (h s a).trans (ih _)

theorem forEach {n : Nat} {f : Fin n → State → State} (h : ∀ i s, StaysLost s (f i s)) (s : State) :
    StaysLost s (forEach n f s) := foldl (fun s i => h i s) _ s

/-- A change of a car that keeps a LOST car LOST. -/
theorem changeCar {f : Car → Car} (keeps : ∀ c, c.state = .lost → (f c).state = .lost) (i : Fin 8) (s : State) :
    StaysLost s (changeCar i f s) := by
  intro j c car lost
  by_cases here : j = i
  · subst here
    exact ⟨f c, by rw [changeCar_own, car]; rfl, keeps c lost⟩
  · exact ⟨c, by rw [changeCar_others f s here, car], lost⟩

end StaysLost

theorem reportTransition_lost (s : State) (r : CarReport) {c : Car} (lost : c.state = .lost) :
    reportTransition s r c = c := by
  simp only [reportTransition, lost]

theorem shutdownCar_staysLost (i : Fin 8) (s : State) : StaysLost s (shutdownCar i s) :=
  .changeCar (fun c lost => by rw [if_neg (by simp [lost])]; exact lost) i s

theorem takeCarReport_staysLost (i : Fin 8) (r : CarReport) (s : State) : StaysLost s (takeCarReport i r s) := by
  have reported : StaysLost s (changeCar i (fun c => reportTransition s r { c with reported := some r }) s) :=
    .changeCar (fun c lost => by rw [reportTransition_lost s r (c := { c with reported := some r }) lost]; exact lost) i s
  exact (reported.trans (shutdownCar_staysLost i _)).ite reported

/-- R64: without the ONLINE notice, a LOST car is LOST after the reports of its interface too. -/
theorem liftReply_staysLost (a : Byte) (payload : List Byte) (s : State) : StaysLost s (liftReply false a payload s) := by
  unfold liftReply
  extract_lets reports
  refine StaysLost.forEach (fun idx s => StaysLost.forEach (fun i s => ?_) s) s
  split
  · exact .refl s
  · next c car =>
    refine .ite ?_ (.refl s)
    simp only [carReply, car]
    rw [if_neg (by simp)]
    exact .foldl (fun s r => takeCarReport_staysLost i r s) _ s

theorem deliver_staysLost (kind : StationKind) (src : Byte) (payload : List Byte) (s : State) :
    StaysLost s (deliver kind false src payload s) := by
  cases kind with
  | liftInterface => exact liftReply_staysLost src payload s
  | doorController => exact .of_same ((doorReply_within src payload s).lifts (by simp))
  | amplifierRack => exact .of_same ((rackReply_within src payload s).lifts (by simp [annBlocks, completionBlocks]))
  | tenantConsole => exact .of_same ((consoleReply_within src payload s).lifts (by simp [annBlocks, completionBlocks]))

/-! ### The reply to a poll, and the answer to a forward (R131, R145, R154) -/

/-- R154: the record of a station whose reply has come. -/
def answeredRecord (st : Station) (s : State) : Station := { st with lost := false, noAnswer := 0, lastReply := some (now s) }

section Answered

variable {i : Fin 48} {st : Station} {s : State}

/-- R154: the reply to a poll, before the owner of the record is given it. -/
def recordedReply (i : Fin 48) (st : Station) (s : State) : State :=
  let t := setStation i (some (answeredRecord st s)) s
  if st.lost then
    reportStation i (answeredRecord st s) (appendLog .stationOnline (.stationRecord i) (.station st.address st.kind) t)
  else t

theorem pollAnswered_eq (src : Byte) (payload : List Byte) (inUse : s.sline.stations.get i = some st) :
    pollAnswered i src payload s = deliver st.kind (onlineNotice st src s) src payload (recordedReply i st s) := by
  simp only [pollAnswered, inUse]
  rfl

theorem recordedReply_within (i : Fin 48) (st : Station) (s : State) : Within [.stations] s (recordedReply i st s) :=
  online_within i st (answeredRecord st s) s

theorem recordedReply_stations (i : Fin 48) (st : Station) (s : State) :
    (recordedReply i st s).sline.stations = s.sline.stations.set i (some (answeredRecord st s)) := by
  unfold recordedReply
  extract_lets t
  split
  · rw [(reportStation_within [] i _ _).stations (by simp), (appendLog_within [] _ _ _ _).stations (by simp)]
    rfl
  · rfl

theorem pollAnswered_stations (src : Byte) (payload : List Byte) (inUse : s.sline.stations.get i = some st) :
    (pollAnswered i src payload s).sline.stations = s.sline.stations.set i (some (answeredRecord st s)) := by
  rw [pollAnswered_eq src payload inUse, (deliver_within st.kind _ src payload _).stations (by simp), recordedReply_stations]

/-- R154, R158: a record that was ONLINE at another address than the one polled gives no ONLINE notice. -/
theorem pollAnswered_staysLost {src : Byte} (payload : List Byte) (inUse : s.sline.stations.get i = some st)
    (online : st.lost = false) (other : st.address ≠ src) : StaysLost s (pollAnswered i src payload s) := by
  have noNotice : onlineNotice st src s = false := by simp [onlineNotice, online, other]
  rw [pollAnswered_eq src payload inUse, noNotice]
  exact (StaysLost.of_same ((recordedReply_within i st s).lifts (by simp))).trans (deliver_staysLost st.kind src payload _)

end Answered

theorem endTxn_poll_answered {i : Fin 48} {x : Txn} {s : State} (r : Rx) (payload : List Byte)
    (txn : s.sline.txn = some x) (kind : x.kind = .poll i) :
    endTxn (some payload) (setRx .s r (beginEvent s)) = pollAnswered i x.dest payload (lineFreed r s) := by
  have txn' : (setRx .s r (beginEvent s)).sline.txn = some x := txn
  simp only [endTxn, txn', kind]
  rfl

/-- R130, R131: the frame a transaction awaits, from its station, ends it with its payload as the answer. -/
theorem takeReply_awaited {h : Hdr} {kind : Byte} {payload : List Byte} {x : Txn} {s : State} (powered : s.powered = true)
    (txn : s.sline.txn = some x) (src : h.src = x.dest) (awaits : awaited x = kind) :
    effect (takeReply h kind payload) s = .next (finish s (endTxn (some payload) (setRx .s .hunt (beginEvent s)))) := by
  have txn' : (setRx .s .hunt (beginEvent s)).sline.txn = some x := txn
  rw [effect_on _ powered, takeReply]
  simp only [txn']
  rw [if_pos ⟨src, awaits.symm⟩]

/-- R145: the answer of the forward on line. -/
theorem forwardAnswered_eq {payload : List Byte} {e : Forward} {s : State} (queued : onLine s = some e) :
    forwardAnswered payload s = queueReport e.frame.src 4
      (.serviceAnswer e.late (decide (62 < payload.length)) e.frame.dst (payload.take 62)) (dropOnLine s) := by
  simp only [forwardAnswered, queued]

/-- Settles O50. -/
theorem repliesEndTransactions : Obligations.RepliesEndTransactions := by
  refine ⟨fun h payload i x st s powered txn kind src inUse => ?poll,
    fun h payload e x s powered txn kind src queued => ?forward⟩
  case poll =>
    have step := takeReply_awaited (payload := payload) powered txn src (kind := kindStationReply) (by rw [awaited, kind])
    rw [endTxn_poll_answered .hunt payload txn kind] at step
    have inUse' : (lineFreed .hunt s).sline.stations.get i = some st := inUse
    have polled := pollAnswered_within i x.dest payload (lineFreed .hunt s)
    have stations := pollAnswered_stations x.dest payload inUse'
    refine ⟨_, step, ?_, ?_, fun j other => ?_, ?_, fun online other j c car lost => ?_, ?_⟩
    · rw [finish_sline_txn]
      exact (polled.only .txn (by simp)).1
    · rw [finish_sline_stations, stations]
      exact Tbl.get_set_self ..
    · rw [finish_sline_stations, stations]
      exact Tbl.get_set_ne _ _ other.symm
    · rw [finish_sline_line, (polled.only .receivers (by simp)).2]
      rfl
    · rw [finish_lifts]
      exact pollAnswered_staysLost (s := lineFreed .hunt s) payload inUse' online other j c car lost
    · exact (((lineFreed_within .hunt s).mono (by simp)).trans
        (polled.mono (cs := [.txn, .receivers, .stations, .lifts, .doors, .ann, .allClear, .early, .lines])
          (by simp))).finished
  case forward =>
    have step := takeReply_awaited (payload := payload) powered txn src (kind := kindServiceAnswer) (by rw [awaited, kind])
    obtain ⟨freed, -, within⟩ := forwardEnded_sline (some payload) .hunt s
    have ended : forwardEnded (some payload) (lineFreed .hunt s) = _ := forwardAnswered_eq (s := lineFreed .hunt s) queued
    have dropped : Silent s (dropOnLine (lineFreed .hunt s)) := ⟨rfl, rfl⟩
    rw [endTxn_forward .hunt (some payload) txn kind] at step
    refine ⟨_, step, freed, ?_, ?_, within⟩ <;> rw [ended]
    · rw [finish_cls, (queueReport_within [] _ _ _ _).cls (by simp)]
      rfl
    · exact (queueReport_offered _ _ _ dropped).finished s

end Sys2Proof.Safety

/-! PROOFS. The Evacuation Sequencer's commands and its entry (sections 2.3 to 2.6). -/

namespace Sys2Proof.Safety

-- One proof at a time: the package as one text then compiles within the memory it is given.
set_option Elab.async false

open Sys2Proof.Machine

/-! ### PHASE HOLD (R49) -/

theorem hold_running {s : State} (running : s.seq.state = .running) :
    hold s = (.accepted, { s with seq := { s.seq with
      state := .held, phase := { s.seq.phase with running := false } } }) := if_pos running

theorem hold_not_running {s : State} (other : s.seq.state ≠ .running) : hold s = (.noChange, s) := if_neg other

/-- Settles O24. -/
theorem phaseHoldStopsTheTimer : Obligations.PhaseHoldStopsTheTimer := by
  intro h tail s o
  obtain ⟨t, step, within, plan, answered⟩ :=
    phaseCommand_carriedOut o (brigadeCode .phaseHold :: tail) .phaseHold hold_phaseOnly
  refine ⟨t, step, within, fun running => ?_, fun other => ?_⟩
  · rw [hold_running (s := frameTaken s) running] at plan answered
    exact ⟨plan, answered⟩
  · rw [hold_not_running (s := frameTaken s) other] at plan answered
    exact ⟨plan, answered⟩

/-! ### Commands answered and commands refused (R48, R133) -/

/-- R133: a command to the bridge from a source outside the brigade list. -/
theorem brigade_refused {h : Hdr} {s : State} (powered : s.powered = true) (dst : toBridge s h.dst = true)
    (src : inBrigade s h.src = false) (payload : List Byte) (act : State → State) :
    ∃ t, effect (fromP (brigade h payload act)) s = .next t ∧
      t.log = appendRecord s.log .commandRefused (.stationAddress h.src) (.command (payload.head?.getD 0)) ∧
      t.port.queue = s.port.queue ∧ t.regime = s.regime ∧ Within [.receivers, .lines] s t := by
  have dst' : toBridge (frameTaken s) h.dst = true := dst
  have src' : ¬ inBrigade (frameTaken s) h.src = true := by
    have outside : inBrigade (frameTaken s) h.src = false := src
    simp [outside]
  have acts : brigade h payload act (frameTaken s) =
      appendLog .commandRefused (.stationAddress h.src) (.command (payload.head?.getD 0)) (frameTaken s) := by
    rw [brigade, if_pos dst', if_neg src']
  obtain ⟨step, within⟩ := frame_event (cs := [.receivers, .lines]) powered acts (appendLog_within [] _ _ _ _)
    (appendLog_calm ..)
  exact ⟨_, step, appendLog_log .., by simp [settleLines], appendLog_regime .., within⟩

/-- Settles O31. -/
theorem unknownBrigadeCommandAnswered : Obligations.UnknownBrigadeCommandAnswered := by
  refine ⟨fun h payload s o => command_onlyAnswered o payload rfl, fun h floors bank tail payload s powered dst src c mem => ?_⟩
  simp only [brigadeFrames, List.mem_cons, List.not_mem_nil, or_false] at mem
  rcases mem with rfl | rfl | rfl | rfl | rfl | rfl | rfl | rfl <;> exact brigade_refused powered dst src _ _

/-! ### What promotions leave of the plan -/

/-- Of the plan the floors and the stairs alone are changed. -/
def PlanKept (s t : State) : Prop := t.seq = { s.seq with floors := t.seq.floors, stairs := t.seq.stairs }

namespace PlanKept

variable {s t u : State}

theorem refl (s : State) : PlanKept s s := rfl

theorem trans (h : PlanKept s t) (k : PlanKept t u) : PlanKept s u := by
  rw [PlanKept, k, h]

theorem state (h : PlanKept s t) : t.seq.state = s.seq.state := by rw [h]

theorem foldl {α : Type} {f : State → α → State} (h : ∀ s a, PlanKept s (f s a)) (l : List α) (s : State) :
    PlanKept s (l.foldl f s) := by
  induction l generalizing s with
  | nil => exact .refl s
  | cons a l ih => exact (h s a).trans (ih _)

end PlanKept

theorem appendLog_planKept (k : EventKind) (x : Subject) (d : Detail) (s : State) : PlanKept s (appendLog k x d s) := by
  rw [PlanKept, appendLog_seq]

theorem noteNoStair_planKept (f : Fin 64) (s : State) : PlanKept s (noteNoStair f s) := by
  unfold noteNoStair
  split
  · exact .refl s
  · exact PlanKept.trans (t := setFloor f { s.seq.floors.get f with noStair := true } s) rfl (appendLog_planKept ..)

theorem chargedFor_planKept (f : Fin 64) (s : State) : PlanKept s (chargedFor f s) := by
  unfold chargedFor
  split
  · exact noteNoStair_planKept f s
  · split
    · exact .refl s
    · exact .foldl (f := charge f (floorShare s f)) (fun _ _ => rfl) _ s

theorem promote_planKept (cause : PromotionCause) (f : Fin 64) (s : State) : PlanKept s (promote cause f s) := by
  rw [promote_eq]
  extract_lets u x
  have charged : PlanKept s u := chargedFor_planKept f s
  exact (charged.trans rfl).trans (appendLog_planKept ..)

theorem evaluate_planKept (fs : List (Fin 64)) (k : Nat) (s : State) : PlanKept s (evaluate fs k s) := by
  induction fs generalizing k s with
  | nil => cases k <;> exact .refl s
  | cons f fs ih =>
    cases k with
    | zero => exact .refl s
    | succ k =>
      unfold evaluate
      split
      · exact (noteNoStair_planKept f s).trans (ih _ _)
      · split
        · exact (promote_planKept .phase f s).trans (ih _ _)
        · exact .refl s

/-! ### PHASE STEP and the phase timer (R44, R50) -/

/-- R42: a phase evaluation leaves the state of the plan, or completes it. -/
theorem phaseEvaluation_state (s : State) :
    (phaseEvaluation s).seq.state = s.seq.state ∨ (phaseEvaluation s).seq.state = .complete := by
  unfold phaseEvaluation completeIfDone
  split
  · exact .inr rfl
  · exact .inl (evaluate_planKept ..).state

/-- R44, R50: what one evaluation and the timer's restart make of a plan that runs. -/
def evaluatedOnce (s : State) : State :=
  if (phaseEvaluation s).seq.state = .running then startPhase (phaseEvaluation s) else phaseEvaluation s

theorem evaluatedOnce_seq {s : State} (running : s.seq.state = .running) :
    ((phaseEvaluation s).seq.state = .complete → (evaluatedOnce s).seq = (phaseEvaluation s).seq) ∧
      ((phaseEvaluation s).seq.state ≠ .complete → (evaluatedOnce s).seq =
        { (phaseEvaluation s).seq with phase := { left := ticks s.params.phaseInterval, running := true } }) := by
  refine ⟨fun complete => ?_, fun other => ?_⟩
  · rw [evaluatedOnce, if_neg (by rw [complete]; exact fun h => nomatch h)]
  · have still := ((phaseEvaluation_state s).resolve_right other).trans running
    rw [evaluatedOnce, if_pos still, startPhase, (phaseEvaluation_within s).params (by simp)]

theorem stepPlan_held {s : State} (held : s.seq.state = .held) : stepPlan s = (.accepted, phaseEvaluation s) := by
  simp only [stepPlan, held]

theorem stepPlan_running {s : State} (running : s.seq.state = .running) : stepPlan s = (.accepted, evaluatedOnce s) := by
  simp only [stepPlan, running]
  rfl

theorem planCommand_seq (src : Byte) (c : BrigadeCommand) (f : State → Answer × State) (s : State) :
    (planCommand src c f s).seq = (f s).2.seq :=
  ((floorNotice_within s _).seq (by simp)).trans (answerCommand_seq ..)

/-- A command of the Sequencer carried out: the plan is what the command makes of it. -/
theorem planCommand_carriedOut {h : Hdr} {s : State} (o : BrigadeOpen h s) (payload : List Byte) (c : BrigadeCommand)
    {f : State → Answer × State} (hf : ∀ u, Within [.seq] u (f u).2) :
    ∃ t, effect (fromP (brigade h payload (planCommand h.src c f))) s = .next t ∧ t.seq = (f (frameTaken s)).2.seq ∧
      Within [.receivers, .seq, .doors, .ann, .allClear, .early, .lines] s t := by
  refine ⟨_, brigade_carriedOut o payload _, ?_, ?_⟩
  · rw [finish_seq, planCommand_seq]
  · exact (((takenFrame_within s).mono (by simp)).trans ((planCommand_within h.src c hf (frameTaken s)).mono
      (cs := [.receivers, .seq, .doors, .ann, .allClear, .early, .lines]) (by simp))).finished

theorem phaseExpiry_eq {s : State} (running : s.seq.state = .running) (timer : s.seq.phase.running = true) :
    phaseExpiry s = floorNotice s (seqReport 0 .phaseEvaluation s (evaluatedOnce s)) := if_pos ⟨running, timer⟩

/-- Settles O26. -/
theorem stepAndExpiryEvaluateOnce : Obligations.StepAndExpiryEvaluateOnce := by
  refine ⟨fun h tail s o held => ?held, fun h tail s o running => ?running, fun s powered running timer => ?expiry⟩
  case held =>
    have held' : (frameTaken s).seq.state = .held := held
    obtain ⟨t, step, plan, within⟩ :=
      planCommand_carriedOut o (brigadeCode .phaseStep :: tail) .phaseStep stepPlan_within
    rw [stepPlan_held held'] at plan
    refine ⟨t, step, plan, ?_, within⟩
    rw [plan]
    exact (phaseEvaluation_state (frameTaken s)).imp_left fun same => same.trans held'
  case running =>
    have running' : (frameTaken s).seq.state = .running := running
    obtain ⟨t, step, plan, within⟩ :=
      planCommand_carriedOut o (brigadeCode .phaseStep :: tail) .phaseStep stepPlan_within
    rw [stepPlan_running running'] at plan
    obtain ⟨complete, again⟩ := evaluatedOnce_seq running'
    exact ⟨t, step, fun done => plan.trans (complete done), fun other => plan.trans (again other), within⟩
  case expiry =>
    have running' : (beginEvent s).seq.state = .running := running
    have acts := phaseExpiry_eq running' timer
    obtain ⟨complete, again⟩ := evaluatedOnce_seq running'
    have plan : (finish s (phaseExpiry (beginEvent s))).seq = (evaluatedOnce (beginEvent s)).seq := by
      rw [finish_seq, acts, (floorNotice_within _ _).seq (by simp), (seqReport_within [] _ _ _ _).seq (by simp)]
    refine ⟨_, effect_on phaseExpiry powered, fun done => plan.trans (complete done),
      fun other => plan.trans (again other), ?_⟩
    exact ((beginEvent_within _ s).trans ((phaseExpiry_within _).mono
      (cs := [.seq, .doors, .ann, .allClear, .early, .lines]) (by simp))).finished

/-! ### GENERAL EVACUATE (R52) -/

theorem noteNoStair_others {f g : Fin 64} (other : g ≠ f) (s : State) :
    (noteNoStair f s).seq.floors.get g = s.seq.floors.get g := by
  unfold noteNoStair
  split
  · rfl
  · rw [appendLog_seq, setFloor_seq_floors, Tbl.get_set_ne _ _ other.symm]

theorem chargedFor_others {f g : Fin 64} (other : g ≠ f) (s : State) :
    (chargedFor f s).seq.floors.get g = s.seq.floors.get g := by
  unfold chargedFor
  split
  · exact noteNoStair_others other s
  · split
    · rfl
    · rw [charges_floors]

theorem promote_others (cause : PromotionCause) {f g : Fin 64} (other : g ≠ f) (s : State) :
    (promote cause f s).seq.floors.get g = s.seq.floors.get g := by
  rw [promote_eq]
  extract_lets u x
  rw [appendLog_seq, setFloor_seq_floors, Tbl.get_set_ne _ _ other.symm]
  exact chargedFor_others other s

/-- R40: promotions one after another take their floors to EVACUATE and leave every other floor's record. -/
theorem promotions_floors (cause : PromotionCause) (fs : List (Fin 64)) (s : State) (g : Fin 64) :
    let t := fs.foldl (fun s f => promote cause f s) s
    (g ∈ fs → (t.seq.floors.get g).state = .evacuate) ∧ (g ∉ fs → t.seq.floors.get g = s.seq.floors.get g) := by
  induction fs generalizing s with
  | nil => exact ⟨fun mem => absurd mem List.not_mem_nil, fun _ => rfl⟩
  | cons f fs ih =>
    obtain ⟨promoted, kept⟩ := ih (promote cause f s)
    refine ⟨fun mem => ?_, fun absent => ?_⟩
    · by_cases later : g ∈ fs
      · exact promoted later
      · have first : g = f := (List.mem_cons.mp mem).resolve_right later
        rw [List.foldl_cons, kept later, promote_floor, if_pos first.symm]
    · have other : g ≠ f := fun same => absent (same ▸ List.mem_cons_self)
      have later : g ∉ fs := fun mem => absent (List.mem_cons_of_mem _ mem)
      rw [List.foldl_cons, kept later, promote_others cause other]

theorem mem_candidates {s : State} {f : Fin 64} :
    f ∈ candidates s ↔ inUse s f = true ∧ (s.seq.floors.get f).state = .alert := by
  simp [candidates, List.mem_insertionSort, isAlert]

theorem promoteGeneral_floors (s : State) (f : Fin 64) :
    (inUse s f = true → (s.seq.floors.get f).state = .alert →
      ((promoteGeneral s).seq.floors.get f).state = .evacuate) ∧
    ((s.seq.floors.get f).state ≠ .alert ∨ inUse s f = false →
      (promoteGeneral s).seq.floors.get f = s.seq.floors.get f) := by
  obtain ⟨promoted, kept⟩ := promotions_floors .general (candidates s) s f
  refine ⟨fun used alert => promoted (mem_candidates.mpr ⟨used, alert⟩), fun other => kept fun mem => ?_⟩
  obtain ⟨used, alert⟩ := mem_candidates.mp mem
  rcases other with other | unused
  · exact other alert
  · rw [used] at unused
    cases unused

theorem alertFloors_floor {f : Fin 64} {s : State} (used : inUse s f = true) :
    ((alertFloors s).seq.floors.get f).state ≠ .normal := by
  simp only [alertFloors, get_mapIdx, used]
  cases state : (s.seq.floors.get f).state <;> simp [state]

theorem computeUrgencies_floor (f : Fin 64) (s : State) :
    ((computeUrgencies s).seq.floors.get f).state = (s.seq.floors.get f).state := by
  simp only [computeUrgencies, get_mapIdx]
  split <;> rfl

theorem promoteImmediate_floor {f : Fin 64} {s : State} (alerted : (s.seq.floors.get f).state ≠ .normal) :
    ((promoteImmediate s).seq.floors.get f).state ≠ .normal := by
  obtain ⟨promoted, kept⟩ := promotions_floors .immediate
    ((candidates s).filter fun f => (s.seq.floors.get f).urgency ≤ 2) s f
  rw [promoteImmediate]
  by_cases mem : f ∈ (candidates s).filter fun f => (s.seq.floors.get f).urgency ≤ 2
  · rw [promoted mem]
    exact fun h => nomatch h
  · rw [kept mem]
    exact alerted

theorem endEntry_floors (s : State) :
    (if noAlert s then complete s else startPhase { s with seq := { s.seq with state := .running } }).seq.floors =
      s.seq.floors := by
  split <;> rfl

/-- R35: after the plan's entry no floor in use is NORMAL. -/
theorem seqEntry_floor {f : Fin 64} {s : State} (used : inUse s f = true) :
    ((seqEntry s).seq.floors.get f).state ≠ .normal := by
  unfold seqEntry
  extract_lets plan started withdrawn promoted
  have begun : Within [.seq] s withdrawn := (startClock_within s).trans (withdrawAll_within started)
  have used' : inUse withdrawn f = true := by
    rw [inUse, begun.params (by simp)]
    exact used
  clear_value withdrawn
  have alerted : (promoted.seq.floors.get f).state ≠ .normal :=
    promoteImmediate_floor (s := computeUrgencies (alertFloors withdrawn))
      (by rw [computeUrgencies_floor]; exact alertFloors_floor used')
  clear_value promoted
  exact (congrArg (fun fs => (Tbl.get fs f).state) (endEntry_floors promoted)).trans_ne alerted

/-- What GENERAL EVACUATE leaves of a plan, its floors apart. -/
theorem promoteGeneral_plan (s : State) :
    (promoteGeneral s).seq.state = .complete ∧ (promoteGeneral s).seq.phase = { left := 0, running := false } :=
  ⟨rfl, rfl⟩

/-- R52: outside ACTIVE every floor in use is promoted. -/
theorem generalEntry_floor {f : Fin 64} (src : Byte) {s : State} (used : inUse s f = true) :
    ((generalEntry src s).seq.floors.get f).state = .evacuate := by
  obtain ⟨promoted, kept⟩ := promoteGeneral_floors (seqEntry s) f
  have used' : inUse (seqEntry s) f = true := by
    rw [inUse, (seqEntry_within s).params (by simp)]
    exact used
  have alerted := seqEntry_floor used
  rw [generalEntry, answerCommand_seq]
  cases state : ((seqEntry s).seq.floors.get f).state with
  | normal => exact absurd state alerted
  | alert => exact promoted used' state
  | evacuate => rw [kept (.inl (by simp [state])), state]

/-- R22: the plan after the regime entry is the one the entry makes. -/
theorem goActive_plan (cause : RegimeCause) {plan : State → State} (s : State) :
    ∃ u, Keeps [.mgmt] s u ∧ (goActive cause plan s).seq = (plan u).seq :=
  ⟨_, leaveQuiescent_keeps cause s, by
    unfold goActive
    extract_lets _ a
    rw [(annEntry_within _).seq (by simp [annBlocks, completionBlocks]), (doorEntry_within _).seq (by simp),
      (liftEntry_within _).seq (by simp)]⟩

/-- Settles O27. -/
theorem generalEvacuatePromotesAll : Obligations.GeneralEvacuatePromotesAll := by
  intro h tail s o
  have w := (((takenFrame_within s).toKeeps.mono (by simp)).trans ((evacuateAll_keeps h.src (frameTaken s)).mono
    (cs := [.receivers, .mgmt, .seq, .lifts, .doors, .ann, .allClear, .early, .lines]) (by simp))).finished
  refine ⟨_, brigade_carriedOut o _ _, ?_⟩
  by_cases active : s.regime.state = .active
  · have acts : evacuateAll h.src (frameTaken s) =
        planCommand h.src .generalEvacuate (fun s => (.accepted, promoteGeneral s)) (frameTaken s) := if_pos active
    have plan : (finish s (evacuateAll h.src (frameTaken s))).seq = (promoteGeneral (frameTaken s)).seq := by
      rw [finish_seq, acts, planCommand_seq]
    have still : (finish s (evacuateAll h.src (frameTaken s))).regime.state = .active := by
      have done : Within [.seq, .doors, .ann, .allClear] (frameTaken s) (evacuateAll h.src (frameTaken s)) :=
        acts ▸ planCommand_within _ _ promoteGeneral_within _
      rw [finish_regime]
      rcases done.regime with same | ⟨restoring, -⟩
      · exact same.trans active
      · exact absurd (active.symm.trans restoring) (fun h => nomatch h)
    obtain ⟨complete, phase⟩ := promoteGeneral_plan (frameTaken s)
    have floors := promoteGeneral_floors (frameTaken s)
    refine ⟨still, by rw [plan, complete], by rw [plan, phase], fun f used alert => ?_,
      fun outside => absurd active outside, fun _ f other => ?_, w⟩
    · rw [plan]
      exact (floors f).1 used alert
    · rw [plan]
      exact (floors f).2 other
  · have acts : evacuateAll h.src (frameTaken s) = goActive .generalEvacuate (generalEntry h.src) (frameTaken s) :=
      if_neg active
    obtain ⟨u, left, entered⟩ := goActive_plan .generalEvacuate (plan := generalEntry h.src) (frameTaken s)
    have plan : (finish s (evacuateAll h.src (frameTaken s))).seq = (generalEntry h.src u).seq := by
      rw [finish_seq, acts, entered]
    have promoted : ∀ f, inUse s f = true → ((generalEntry h.src u).seq.floors.get f).state = .evacuate := by
      intro f used
      refine generalEntry_floor h.src ?_
      rw [inUse, left.params (by simp)]
      exact used
    obtain ⟨complete, phase⟩ := promoteGeneral_plan (seqEntry u)
    rw [plan]
    refine ⟨?_, ?_, ?_, fun f used _ => promoted f used, fun _ => promoted, fun now => absurd now active, w⟩
    · rw [finish_regime, acts]
      exact goActive_active _ (generalEntry_within h.src) _
    · rw [generalEntry, answerCommand_seq, complete]
    · rw [generalEntry, answerCommand_seq, phase]

end Sys2Proof.Safety

/-! PROOFS. Zone Intake (chapter 1): detections, faults, windows and the reset of the regime. -/

namespace Sys2Proof.Safety

-- One proof at a time: the package as one text then compiles within the memory it is given.
set_option Elab.async false

open Sys2Proof.Machine

/-! ### A report taken in (R2, R3) -/

/-- R3: the record of a report from a point that no entry of the map covers. -/
def unmappedNoted (kind : AlarmKind) (d : Device) (seq : Byte) (s : State) : State :=
  if (mapped s d).isNone then appendLog .unmappedReport (.point d) (.report kind seq) s else s

section Intake

variable (kind : AlarmKind) (d : Device) (seq : Byte)

theorem unmappedNoted_within (s : State) : Within [] s (unmappedNoted kind d seq s) := noteUnmapped_within [] kind d seq s

theorem unmappedNoted_calm (s : State) : Calm s (unmappedNoted kind d seq s) := (appendLog_calm ..).ite (.refl s)

theorem unmappedNoted_log (s : State) : (unmappedNoted kind d seq s).log =
    if mapped s d = none then appendRecord s.log .unmappedReport (.point d) (.report kind seq) else s.log := by
  unfold unmappedNoted
  cases mapped s d with
  | none => exact appendLog_log ..
  | some z => rfl

theorem unmappedNoted_port (s : State) : (unmappedNoted kind d seq s).port = s.port := by
  unfold unmappedNoted
  split
  · exact appendLog_port ..
  · rfl

theorem unmappedNoted_now (s : State) : now (unmappedNoted kind d seq s) = now s := by
  unfold unmappedNoted
  split
  · simp only [now, appendLog_log, appendRecord]
  · rfl

theorem unmappedNoted_zones (s : State) : (unmappedNoted kind d seq s).zones = s.zones :=
  (unmappedNoted_within kind d seq s).zones (by simp)

theorem intake_included {s : State} (f : Fin 256 → State → State) (included : isolated s d (zoneOf s d) = false) :
    intake kind d seq f s = f (zoneOf s d) (unmappedNoted kind d seq s) := by
  have included' : isolated (unmappedNoted kind d seq s) d (zoneOf s d) = false := by
    rw [isolated, unmappedNoted_zones]
    exact included
  exact if_neg (included'.trans_ne Bool.false_ne_true)

theorem intake_isolated {s : State} (f : Fin 256 → State → State) (out : isolated s d (zoneOf s d) = true) :
    intake kind d seq f s = appendLog .isolatedReport (.point d) (.report kind seq) (unmappedNoted kind d seq s) := by
  have out' : isolated (unmappedNoted kind d seq s) d (zoneOf s d) = true := by
    rw [isolated, unmappedNoted_zones]
    exact out
  exact if_pos out'

end Intake

theorem offerForward_port (f : Frame) (s : State) : (offerForward f s).port = s.port := by
  unfold offerForward
  split
  · exact appendLog_port ..
  · rfl

theorem cross_port (f : Frame) (s : State) : (cross f s).port = s.port := by
  unfold cross
  split
  · exact offerForward_port f s
  · rfl

/-- R134: what the filter list does with a frame queues no report. -/
theorem filterFrame_port (f : Frame) (s : State) : (filterFrame f s).port = s.port := by
  unfold filterFrame
  split
  · next i _ =>
    cases (s.cls.filter.get i).action with
    | forward => exact cross_port f s
    | forwardAndLog => exact (cross_port f _).trans (appendLog_port ..)
    | gatedForward =>
      simp only [act]
      split
      · split
        · exact offerForward_port f s
        · exact appendLog_port ..
      · rfl
    | drop => rfl
    | capture k => rfl
    | captureAndForward k => exact cross_port f _
  · split
    · exact cross_port f s
    · rfl

/-! ### Faults, and reports of isolated points (R14) -/

section Reports

variable {kind : AlarmKind} {h : Hdr} {d : Device} {seq : Byte} {tail : List Byte} {s : State}

theorem takeFault_zones (isSet : Bool) (z : Fin 256) (seq : Byte) (s : State) :
    (takeFault isSet z seq s).zones =
      { s.zones with table := s.zones.table.set z { s.zones.table.get z with fault := isSet } } := by
  unfold takeFault
  extract_lets x
  split
  · next already =>
    have same : s.zones.table.set z { x with fault := isSet } = s.zones.table := by
      rw [← already]
      exact set_get_self ..
    rw [same]
  · rw [reportZone_zones, appendLog_zones]
    rfl

theorem takeFault_calm (isSet : Bool) (z : Fin 256) (seq : Byte) (s : State) : Calm s (takeFault isSet z seq s) := by
  have flagged : Calm s (setZone z { s.zones.table.get z with fault := isSet } s) := ⟨rfl, rfl⟩
  exact (Calm.refl s).ite ((flagged.trans (appendLog_calm ..)).trans (reportZone_calm z _))

/-- R2, R133: an ALARM REPORT that Zone Intake deals with by calm operations on the zones, and the filter list after it. -/
theorem report_event {f : Fin 256 → State → State} {u : State} {bs cs : List Block} (powered : s.powered = true)
    (takes : intake kind d seq f (frameTaken s) = u) (w : Within bs (frameTaken s) u) (calm : Calm (frameTaken s) u)
    (m : ∀ b ∈ pollInputs, b ∉ Block.receivers :: .cls :: bs := by decide)
    (sub : ∀ b ∈ Block.lines :: .receivers :: .cls :: bs, b ∈ cs := by decide) :
    ∃ t, effect (fromP (alarmReport kind h d seq tail f)) s = .next t ∧ t.zones = u.zones ∧ Appends u.log t.log ∧
      t.port = u.port ∧ Within cs s t := by
  let frame := frameWith h kindAlarmReport (alarmPayload kind d seq tail)
  have filtered := filterFrame_within frame u
  have acts : alarmReport kind h d seq tail f (frameTaken s) = filterFrame frame u := by rw [alarmReport, takes]
  obtain ⟨step, within⟩ := frame_event (cs := cs) powered acts
    ((w.mono (cs := .cls :: bs) fun b m => List.mem_cons_of_mem _ m).trans (filtered.mono (by simp)))
    (calm.trans (filterFrame_calm frame u)) m sub
  exact ⟨_, step, filtered.zones (by simp), filtered.log, filterFrame_port frame u, within⟩

end Reports

/-- R2: a report from an isolated point. -/
theorem isolated_report {kind : AlarmKind} {d : Device} {seq : Byte} {s : State} (h : Hdr) (tail : List Byte)
    (f : Fin 256 → State → State) (powered : s.powered = true) (out : isolated s d (zoneOf s d) = true) :
    ∃ t, effect (fromP (alarmReport kind h d seq tail f)) s = .next t ∧
      Appends (appendRecord
        (if mapped s d = none then appendRecord s.log .unmappedReport (.point d) (.report kind seq) else s.log)
        .isolatedReport (.point d) (.report kind seq)) t.log ∧
      t.port.queue = s.port.queue ∧ Within [.receivers, .cls, .lines] s t := by
  obtain ⟨t, step, -, log, port, within⟩ := report_event (h := h) (tail := tail) (cs := [.receivers, .cls, .lines]) powered
    (intake_isolated kind d seq f (s := frameTaken s) out)
    ((unmappedNoted_within kind d seq _).trans (appendLog_within [] _ _ _ _))
    ((unmappedNoted_calm kind d seq _).trans (appendLog_calm ..))
  refine ⟨t, step, ?_, ?_, within⟩
  · rw [appendLog_log, unmappedNoted_log] at log
    exact log
  · rw [port, appendLog_port, unmappedNoted_port]
    rfl

/-- R14: a FAULT or FAULT CLEAR of a point that is not isolated. -/
theorem fault_report {kind : AlarmKind} {d : Device} {seq : Byte} {s : State} (isSet : Bool) (h : Hdr) (tail : List Byte)
    (powered : s.powered = true) (included : isolated s d (zoneOf s d) = false) :
    ∃ t, effect (fromP (alarmReport kind h d seq tail fun z => takeFault isSet z seq)) s = .next t ∧
      t.zones = { s.zones with
        table := s.zones.table.set (zoneOf s d) { s.zones.table.get (zoneOf s d) with fault := isSet } } ∧
      Within [.receivers, .zones, .cls, .lines] s t := by
  have noted := unmappedNoted_zones kind d seq (frameTaken s)
  obtain ⟨t, step, zones, -, -, within⟩ := report_event (h := h) (tail := tail) (cs := [.receivers, .zones, .cls, .lines])
    powered (intake_included kind d seq (fun z => takeFault isSet z seq) (s := frameTaken s) included)
    (((unmappedNoted_within kind d seq _).mono (by simp)).trans (takeFault_within isSet _ seq _))
    ((unmappedNoted_calm kind d seq _).trans (takeFault_calm isSet _ seq _))
  refine ⟨t, step, ?_, within⟩
  rw [zones, takeFault_zones, noted]
  rfl

/-- Settles O21. -/
theorem faultsActOnTheFlagAlone : Obligations.FaultsActOnTheFlagAlone := by
  refine ⟨?_, fun h d seq tail s powered out c mem => ?_⟩
  · intro h d seq tail s z x powered included
    refine ⟨?_, ?_, ?_⟩
    · obtain ⟨t, step, zones, within⟩ := fault_report (kind := .fault) (seq := seq) true h tail powered included
      refine ⟨t, step, ?_, fun y other => ?_, ?_, within⟩ <;> rw [zones]
      · exact Tbl.get_set_self ..
      · exact Tbl.get_set_ne _ _ other.symm
    · obtain ⟨t, step, zones, within⟩ := fault_report (kind := .faultClear) (seq := seq) false h tail powered included
      refine ⟨t, step, ?_, fun y other => ?_, ?_, within⟩ <;> rw [zones]
      · exact Tbl.get_set_self ..
      · exact Tbl.get_set_ne _ _ other.symm
    · obtain ⟨t, step, -, -, -, within⟩ := report_event (h := h) (tail := tail) (cs := [.receivers, .cls, .lines])
        powered (intake_included .normal d seq (fun _ s => s) (s := frameTaken s) included)
        (unmappedNoted_within .normal d seq _) (unmappedNoted_calm .normal d seq _)
      exact ⟨t, step, within⟩
  · simp only [alarmFrames, List.mem_cons, List.not_mem_nil, or_false] at mem
    rcases mem with rfl | rfl | rfl | rfl <;> exact isolated_report h tail _ powered out

/-! ### Detections (R5 to R10) -/

/-- R9, R10: the zones of a group taken from PRE-ALARM to ALARM, one after another. -/
theorem confirmed_zones (d : Device) (s : State) (l : List (Fin 256)) (u : State) :
    let t := l.foldl (fun u y => setZone y (toAlarm s d (u.zones.table.get y)) u) u
    t.zones.map = u.zones.map ∧ t.zones.isolation = u.zones.isolation ∧
      ∀ y, (y ∉ l → t.zones.table.get y = u.zones.table.get y) ∧ (y ∈ l → (t.zones.table.get y).state = .alarm) := by
  induction l generalizing u with
  | nil => exact ⟨rfl, rfl, fun y => ⟨fun _ => rfl, fun mem => absurd mem List.not_mem_nil⟩⟩
  | cons a l ih =>
    obtain ⟨map, isolation, zones⟩ := ih (setZone a (toAlarm s d (u.zones.table.get a)) u)
    refine ⟨map, isolation, fun y => ?_⟩
    obtain ⟨kept, confirmed⟩ := zones y
    refine ⟨fun absent => ?_, fun mem => ?_⟩
    · have other : a ≠ y := fun same => absent (same ▸ List.mem_cons_self)
      rw [List.foldl_cons, kept fun later => absent (List.mem_cons_of_mem _ later)]
      exact Tbl.get_set_ne _ _ other
    · by_cases later : y ∈ l
      · exact confirmed later
      · have first : y = a := (List.mem_cons.mp mem).resolve_right later
        subst first
        rw [List.foldl_cons, kept later, setZone_zones_table, Tbl.get_set_self]
        unfold toAlarm
        split <;> rfl

/-- R8 to R10: the record of the zone of a detection, before its group is dealt with. -/
def detected (d : Device) (z : Fin 256) (s : State) : Zone :=
  let x := countUp (s.zones.table.get z)
  if knockers s z = [] then applyDetect s d x else if x.state = .alarm then x else toAlarm s d x

theorem detectZones_zones (d : Device) (z : Fin 256) (s : State) :
    let t := detectZones d z s
    t.zones.map = s.zones.map ∧ t.zones.isolation = s.zones.isolation ∧
      t.zones.table.get z = detected d z s ∧ (∀ y ∈ knockers s z, (t.zones.table.get y).state = .alarm) ∧
      ∀ y, y ≠ z → y ∉ knockers s z → t.zones.table.get y = s.zones.table.get y := by
  obtain ⟨map, isolation, zones⟩ := confirmed_zones d s (knockers s z) (setZone z (detected d z s) s)
  refine ⟨map, isolation, ?_, fun y mem => (zones y).2 mem, fun y other absent => ?_⟩
  · have apart : z ∉ knockers s z := by
      unfold knockers
      split
      · exact List.not_mem_nil
      · simp
    exact ((zones z).1 apart).trans (Tbl.get_set_self ..)
  · exact ((zones y).1 absent).trans (Tbl.get_set_ne _ _ other.symm)

/-- R9, R10, R12: the record of a zone that a detection takes to ALARM. -/
def alarmed (d : Device) (x : Zone) (stamp : Stamp) : Zone :=
  { x with
    state := .alarm, window := none, count := min 255 (x.count + 1)
    first := if x.state = .quiet then some d else x.first
    windowStart := if x.state = .quiet then stamp else x.windowStart }

theorem toAlarm_countUp (s : State) (d : Device) (x : Zone) (state : x.state ≠ .alarm) :
    toAlarm s d (countUp x) = alarmed d x (now s) := by
  cases st : x.state <;> simp_all [toAlarm, countUp, alarmed]

/-- R5, R9, R10: a detection that needs no confirmation, or a second device in PRE-ALARM. -/
theorem detected_alarmed {d : Device} {z : Fin 256} {s : State}
    (h : ((s.zones.table.get z).state = .quiet ∧ effective (s.zones.table.get z) = .none) ∨
      ((s.zones.table.get z).state = .preAlarm ∧ effective (s.zones.table.get z) ≠ .none ∧
        (s.zones.table.get z).first ≠ some d)) :
    detected d z s = alarmed d (s.zones.table.get z) (now s) := by
  set x := s.zones.table.get z with zone
  have state : x.state ≠ .alarm := by
    rcases h with ⟨quiet, -⟩ | ⟨preAlarm, -⟩
    · rw [quiet]
      exact fun h => nomatch h
    · rw [preAlarm]
      exact fun h => nomatch h
  have alone : applyDetect s d (countUp x) = toAlarm s d (countUp x) := by
    have verification : effective (countUp x) = effective x := rfl
    rcases h with ⟨quiet, none'⟩ | ⟨preAlarm, verifies, another⟩
    · have quiet' : (countUp x).state = .quiet := quiet
      simp only [applyDetect, quiet', verification, none']
    · have preAlarm' : (countUp x).state = .preAlarm := preAlarm
      have another' : (countUp x).first ≠ some d := another
      simp only [applyDetect, preAlarm', verification]
      cases mode : effective x with
      | none => exact absurd mode verifies
      | doubleKnock => exact if_neg another'
      | reAlarm => exact if_neg fun same => another' same.1
  have state' : ¬ (countUp x).state = .alarm := state
  rw [← toAlarm_countUp s d x state, detected, ← zone, alone, if_neg state', ite_self]

/-- R8: a first detection in a zone that verifies. -/
theorem detected_preAlarm {d : Device} {z : Fin 256} {s : State} (quiet : (s.zones.table.get z).state = .quiet)
    (verifies : effective (s.zones.table.get z) ≠ .none) (alone : knockers s z = []) :
    detected d z s = toPreAlarm s d (countUp (s.zones.table.get z)) := by
  have quiet' : (countUp (s.zones.table.get z)).state = .quiet := quiet
  have verification : effective (countUp (s.zones.table.get z)) = effective (s.zones.table.get z) := rfl
  rw [detected, if_pos alone]
  simp only [applyDetect, quiet', verification]

/-! ### What follows a change of the zones (R15, R22) -/

/-- R22: announced zones of which one has come to be in ALARM leave the regime ACTIVE. -/
theorem announceZones_active {before s : State} {z : Fin 256} (seq : Byte)
    (was : (before.zones.table.get z).state ≠ .alarm) (alarm : (s.zones.table.get z).state = .alarm) :
    (announceZones seq before s).regime.state = .active := by
  have changed : z ∈ changedZones before s := mem_changedZones.mpr (alarm.trans_ne was.symm)
  unfold announceZones
  extract_lets zs t
  rw [if_neg (List.ne_nil_of_mem changed)]
  exact zonesChanged_active (.inl (List.ne_nil_of_mem (List.mem_filter.mpr ⟨changed, by simp [alarm]⟩)))

/-- R22: announced zones of which none has come to be in ALARM leave the regime as it was. -/
theorem announceZones_regime {before s : State} (seq : Byte)
    (none' : ∀ z, (s.zones.table.get z).state ≠ (before.zones.table.get z).state → (s.zones.table.get z).state ≠ .alarm) :
    (announceZones seq before s).regime.state = s.regime.state := by
  have entered : ((changedZones before s).filter fun z => (s.zones.table.get z).state == .alarm) = [] := by
    refine List.filter_eq_nil_iff.mpr fun z mem => ?_
    simpa using none' z (mem_changedZones.mp mem)
  unfold announceZones
  extract_lets zs t
  have announced : t.regime = s.regime :=
    foldl_keeps State.regime (f := announceZone seq) (fun u z => by
      rw [announceZone, reportZone, queueReport, offer_regime, appendLog_regime]) zs s
  split
  · rfl
  · rw [entered, ← announced]
    by_cases active : t.regime.state = .active
    · rw [zonesChanged_active (.inr active), active]
    · rw [zonesChanged, if_neg active]

section Detect

variable {h : Hdr} {d : Device} {seq : Byte} {tail : List Byte} {s : State}

/-- R2, R5: a DETECT of a point that is not isolated: the zones are what the detection makes of them, from a state that
differs from the one before in the receiver and a record. -/
theorem detect_exec (powered : s.powered = true) (included : isolated s d (zoneOf s d) = false) :
    ∃ t u, exec (.detect h d.panel d.point seq tail) s = .next t ∧ Within [.receivers] s u ∧
      u.regime = s.regime ∧ now u = now s ∧ t.zones = (detectZones d (zoneOf s d) u).zones ∧
      t.regime = (announceZones seq u (detectZones d (zoneOf s d) u)).regime ∧
      Keeps (.receivers :: .cls :: alarmBlocks) s t := by
  let frame := frameWith h kindAlarmReport (alarmPayload .detect d seq tail)
  set u := unmappedNoted .detect d seq (frameTaken s) with noted
  have begun : Within [.receivers] s u :=
    (takenFrame_within s).trans ((unmappedNoted_within .detect d seq _).mono (by simp))
  have acts : alarmReport .detect h d seq tail (fun z => takeDetect d z seq) (frameTaken s) =
      filterFrame frame (takeDetect d (zoneOf s d) seq u) := by
    rw [alarmReport, intake_included .detect d seq (fun z => takeDetect d z seq) (s := frameTaken s) included]
    rfl
  have w : Keeps (.receivers :: .cls :: alarmBlocks) s (filterFrame frame (takeDetect d (zoneOf s d) seq u)) :=
    (begun.toKeeps.mono (by simp)).trans (((takeDetect_keeps d (zoneOf s d) seq u).mono (by simp)).trans
      ((filterFrame_within frame _).toKeeps.mono (by simp)))
  refine ⟨_, u, effect_on _ powered, begun, ?_, unmappedNoted_now .detect d seq (frameTaken s), ?_, ?_, ?_⟩
  · rw [(unmappedNoted_calm .detect d seq (frameTaken s)).regime]
    rfl
  · rw [finish_zones]
    show (alarmReport .detect h d seq tail (fun z => takeDetect d z seq) (frameTaken s)).zones = _
    rw [acts, (filterFrame_within frame _).zones (by simp), takeDetect, announceZones_zones]
  · rw [finish_regime]
    show (alarmReport .detect h d seq tail (fun z => takeDetect d z seq) (frameTaken s)).regime = _
    rw [acts, (filterFrame_calm frame _).regime, takeDetect]
  · exact (acts ▸ w : Keeps _ s (alarmReport .detect h d seq tail (fun z => takeDetect d z seq) (frameTaken s))).finished

end Detect

theorem detectZones_regime (d : Device) (z : Fin 256) (s : State) : (detectZones d z s).regime = s.regime := by
  unfold detectZones
  extract_lets _ _ t
  exact foldl_keeps State.regime (f := fun u y => setZone y (toAlarm s d (u.zones.table.get y)) u) (fun _ _ => rfl) _ t

/-- Settles O19. -/
theorem detectPutsZoneInAlarm : Obligations.DetectPutsZoneInAlarm := by
  intro h d seq tail s z x powered included confirms
  obtain ⟨t, u, step, begun, -, stamp, zones, regime, keeps⟩ :=
    detect_exec (h := h) (seq := seq) (tail := tail) powered included
  have taken : u.zones = s.zones := begun.zones (by simp)
  have group : knockers u z = knockers s z := by simp only [knockers, taken]
  have zone : u.zones.table.get z = x := by rw [taken]
  obtain ⟨map, isolation, own, others, rest⟩ := detectZones_zones d z u
  have result : detected d z u = alarmed d x s.log.stamp := by
    have made := detected_alarmed (d := d) (z := z) (s := u) (by rw [zone]; exact confirms)
    rw [zone, stamp] at made
    exact made
  have was : (u.zones.table.get z).state ≠ .alarm := by
    rw [zone]
    rcases confirms with ⟨quiet, -⟩ | ⟨preAlarm, -⟩
    · rw [quiet]; exact fun h => nomatch h
    · rw [preAlarm]; exact fun h => nomatch h
  rw [group] at others rest
  refine ⟨t, step, ?_, ?_, fun y mem => ?_, fun y other absent => ?_, ?_, ?_, keeps⟩
  · rw [regime]
    exact announceZones_active seq was (by rw [own, result]; rfl)
  · rw [zones]
    exact own.trans result
  · rw [zones]
    exact others y mem
  · rw [zones, rest y other absent, taken]
  · rw [zones, map, taken]
  · rw [zones, isolation, taken]

/-- Settles O20. -/
theorem detectOpensWindow : Obligations.DetectOpensWindow := by
  intro h d seq tail s z x powered included quiet verifies alone
  obtain ⟨t, u, step, begun, regime', stamp, zones, regime, keeps⟩ :=
    detect_exec (h := h) (seq := seq) (tail := tail) powered included
  have taken : u.zones = s.zones := begun.zones (by simp)
  have group : knockers u z = [] := by
    rw [← alone]
    simp only [knockers, taken]
  have zone : u.zones.table.get z = x := by rw [taken]
  obtain ⟨-, -, own, -, rest⟩ := detectZones_zones d z u
  have result : detected d z u = toPreAlarm u d (countUp x) := by
    have made := detected_preAlarm (d := d) (z := z) (s := u) (by rw [zone]; exact quiet) (by rw [zone]; exact verifies) group
    rw [zone] at made
    exact made
  have others : ∀ y, y ≠ z → (detectZones d z u).zones.table.get y = u.zones.table.get y := fun y other =>
    rest y other (by rw [group]; exact List.not_mem_nil)
  refine ⟨t, step, ?_, ?_, fun y other => ?_, keeps⟩
  · rw [regime, announceZones_regime seq fun y changed => ?_, detectZones_regime, regime']
    by_cases here : y = z
    · rw [here, own, result]
      exact fun h => nomatch h
    · exact absurd (congrArg Zone.state (others y here)) changed
  · rw [zones, own, result, toPreAlarm, stamp]
    rfl
  · rw [zones, others y other, taken]

/-! ### The re-examination of the isolation list (R20) -/

theorem marks_zones (list : List IsoEntry) (s : State) :
    let t := list.foldl (fun s e => markIsolated e s) s
    t.zones.map = s.zones.map ∧ t.zones.isolation = s.zones.isolation ∧
      ∀ z, ∃ b, t.zones.table.get z = { s.zones.table.get z with isolated := b } := by
  induction list generalizing s with
  | nil => exact ⟨rfl, rfl, fun z => ⟨_, rfl⟩⟩
  | cons e list ih =>
    obtain ⟨map, isolation, zones⟩ := ih (markIsolated e s)
    refine ⟨map.trans ?_, isolation.trans ?_, fun z => ?_⟩
    · rw [markIsolated_eq]
    · rw [markIsolated_eq]
    · obtain ⟨b, marked⟩ := zones z
      exact ⟨b, by rw [List.foldl_cons, marked, markIsolated_get]⟩

/-- R20: the entries of the isolation list, re-examined. -/
def reexamined (s : State) : List IsoEntry :=
  s.zones.isolation.map fun e => { e with active := e.active || allQuiet s e.scope }

/-- R20: the list re-examined, and of the zones the ISOLATED flag alone. -/
theorem reexamine_zones (s : State) :
    (reexamine s).zones.map = s.zones.map ∧ (reexamine s).zones.isolation = reexamined s ∧
      ∀ z, ∃ b, (reexamine s).zones.table.get z = { s.zones.table.get z with isolated := b } := by
  unfold reexamine
  extract_lets list marked t
  split
  · next same => exact ⟨rfl, same.symm, fun z => ⟨_, rfl⟩⟩
  · exact marks_zones list { s with zones := { s.zones with isolation := list } }

theorem reexamine_regime (s : State) : (reexamine s).regime = s.regime := by
  unfold reexamine
  extract_lets list marked t
  split
  · rfl
  · exact foldl_keeps State.regime (fun u e => by rw [markIsolated_eq]) list _

/-! ### A window that expires (R13) -/

/-- R13: the record of a zone whose window has expired. -/
def unconfirmed (x : Zone) : Zone := { x with state := .quiet, first := none, window := none }

theorem windowExpiry_eq {z : Fin 256} {s : State} (preAlarm : (s.zones.table.get z).state = .preAlarm)
    (running : (s.zones.table.get z).window.isSome = true) :
    windowExpiry z s = reexamine (announceZones 0 s (appendLog .unconfirmedDetection (.zone z)
      (.count (s.zones.table.get z).count) (setZone z (unconfirmed (s.zones.table.get z)) s))) :=
  if_pos ⟨preAlarm, running⟩

/-- Settles O23. -/
theorem windowExpiryQuietsZone : Obligations.WindowExpiryQuietsZone := by
  intro z s x powered preAlarm running
  set v := appendLog .unconfirmedDetection (.zone z) (.count x.count) (setZone z (unconfirmed x) (beginEvent s)) with quieted
  have acts : windowExpiry z (beginEvent s) = reexamine (announceZones 0 (beginEvent s) v) :=
    windowExpiry_eq (s := beginEvent s) preAlarm running
  have table : v.zones.table = s.zones.table.set z (unconfirmed x) := by
    rw [quieted, appendLog_zones]
    rfl
  have map : v.zones.map = s.zones.map := by
    rw [quieted, appendLog_zones]
    rfl
  obtain ⟨kept, -, zones⟩ := reexamine_zones (announceZones 0 (beginEvent s) v)
  have record : ∀ y, ∃ b, (finish s (windowExpiry z (beginEvent s))).zones.table.get y =
      { (s.zones.table.set z (unconfirmed x)).get y with isolated := b } := by
    intro y
    obtain ⟨b, marked⟩ := zones y
    refine ⟨b, ?_⟩
    rw [finish_zones, acts]
    refine marked.trans ?_
    rw [announceZones_zones, table]
  have w : Keeps alarmBlocks s (windowExpiry z (beginEvent s)) :=
    ((beginEvent_within alarmBlocks s).toKeeps).trans ((windowExpiry_keeps z _).mono (by simp))
  refine ⟨_, effect_on (windowExpiry z) powered, ?_, ?_, fun y other => ?_, ?_, w.finished⟩
  · rw [finish_regime, acts, reexamine_regime, announceZones_regime 0 fun y changed => ?_]
    · rw [appendLog_regime]
      rfl
    · rw [table, Tbl.get_set] at changed ⊢
      split
      · exact fun h => nomatch h
      · next other =>
        rw [if_neg other] at changed
        exact absurd rfl changed
  · obtain ⟨b, own⟩ := record z
    rw [Tbl.get_set_self] at own
    rw [own]
    exact ⟨rfl, rfl, rfl, rfl, rfl, rfl, rfl⟩
  · obtain ⟨b, rest⟩ := record y
    rw [Tbl.get_set_ne _ _ other.symm] at rest
    rw [rest]
    exact ⟨rfl, rfl⟩
  · rw [finish_zones, acts]
    refine kept.trans ?_
    rw [announceZones_zones, map]

/-! ### REGIME RESET (R24, R25) -/

/-- R25, R54, R81: where the Sequencer and the door points are reset from, and what the regime is left as. -/
theorem goRestoring_blocks (s : State) :
    ∃ u, Keeps [.allClear, .relock] s u ∧ (goRestoring s).seq = (seqReset u).seq ∧
      (goRestoring s).doors = { s.doors with relock := some (ticks s.params.relockTime) } ∧
      (goRestoring s).regime.state = .restoring ∧ (goRestoring s).regime.relockDone = false ∧
      Keeps [.seq, .doors, .ann, .allClear, .relock] s (goRestoring s) := by
  unfold goRestoring
  extract_lets old cleared restoring
  have clears : Keeps [.allClear, .relock] s cleared := setFlags_keeps s _
  have sets : Keeps [] cleared restoring := setRegime_keeps .restoring .regimeReset cleared
  have begun : Keeps [.allClear, .relock] s restoring := clears.trans (sets.mono (by simp))
  have regime : restoring.regime = { cleared.regime with state := .restoring } := setRegime_regime ..
  have reported := (seqReset_within restoring).trans (seqReport_within [.seq] 0 .regimeReset restoring (seqReset restoring))
  set v := seqReport 0 .regimeReset restoring (seqReset restoring) with plan
  have kept : v.regime = restoring.regime := offer_regime ..
  have ended := annReset_within (doorReset v)
  have relockDone : (annReset (doorReset v)).regime.relockDone = false :=
    ((ended.only .relock (by simp [annBlocks, completionBlocks])).trans (congrArg RegimeCtl.relockDone kept)).trans
      (congrArg RegimeCtl.relockDone regime)
  have keeps : Keeps [.seq, .doors, .ann, .allClear, .relock] s (annReset (doorReset v)) :=
    (begun.mono (by simp)).trans ((reported.toKeeps.mono (by simp)).trans
      (((doorReset_within v).toKeeps.mono (by simp)).trans
        (ended.toKeeps.mono (by simp [annBlocks, completionBlocks]))))
  refine ⟨restoring, begun, ?_, ?_, ?_, relockDone, keeps⟩
  · rw [ended.seq (by simp [annBlocks, completionBlocks]), (doorReset_within v).seq (by simp)]
    exact (seqReport_within [] _ _ _ _).seq (by simp)
  · rw [ended.doors (by simp [annBlocks, completionBlocks]), doorReset, reported.doors (by simp),
      reported.params (by simp), begun.doors (by simp), begun.params (by simp)]
  · rcases ended.regime with same | ⟨-, -, -, done⟩
    · exact same.trans (congrArg RegimeCtl.state (kept.trans regime))
    · rw [relockDone] at done
      cases done

theorem seqReset_plan (s : State) :
    (∀ f, inUse s f = true → ((seqReset s).seq.floors.get f).state = .normal) ∧
      (∀ st, ((seqReset s).seq.stairs.get st).loads = [] ∧ ((seqReset s).seq.stairs.get st).committed = 0 ∧
        ((seqReset s).seq.stairs.get st).inService = true) ∧ (seqReset s).seq.state = .idle := by
  refine ⟨fun f used => ?_, fun st => ?_, rfl⟩
  · simp only [seqReset, get_mapIdx, used]
    rfl
  · simp only [seqReset, Tbl.get_map]
    exact ⟨rfl, rfl, rfl⟩

theorem resetZones_get (s : State) (z : Fin 256) :
    (resetZones s).zones.table.get z = resetZone (s.zones.table.get z) := by
  rw [resetZones, Tbl.get_map]

theorem resetZone_fault (x : Zone) : (resetZone x).fault = x.fault := by
  unfold resetZone
  split <;> rfl

/-- R20, R24: with every zone QUIET every entry of the isolation list is ACTIVE. -/
theorem reexamined_reset (s : State) :
    (∀ e ∈ reexamined (resetZones s), e.active = true) ∧
      (reexamined (resetZones s)).map (·.scope) = s.zones.isolation.map (·.scope) := by
  have quiet : ∀ c, allQuiet (resetZones s) c = true := fun c => by simp [allQuiet, resetZones_quiet]
  refine ⟨fun e mem => ?_, ?_⟩
  · obtain ⟨x, -, rfl⟩ := List.mem_map.mp mem
    simp [quiet]
  · rw [reexamined, List.map_map]
    rfl

/-- Settles O22. -/
theorem regimeResetRestores : Obligations.RegimeResetRestores := by
  refine ⟨fun h payload s powered dst panel active => ?_, fun h payload s powered dst other => ?_⟩
  · set g := fun s => if toBridge s h.dst then takeReset h.src s else filterFrame (frameWith h kindRegimeReset payload) s
      with handles
    set r := reexamine (resetZones (frameTaken s)) with reset
    have acts : fromP g (beginEvent s) = goRestoring r := by
      have handled : g (frameTaken s) = takeReset h.src (frameTaken s) := if_pos dst
      have accepted : takeReset h.src (frameTaken s) = acceptReset (frameTaken s) := if_pos panel
      have active' : (frameTaken s).regime.state = .active := active
      refine (handled.trans accepted).trans ?_
      simp only [acceptReset, active']
      rfl
    have begun : Keeps [.receivers, .zones, .mgmt] s r :=
      ((takenFrame_within s).toKeeps.mono (by simp)).trans (((resetZones_within _).toKeeps.mono (by simp)).trans
        ((reexamine_within _).toKeeps.mono (by simp)))
    have zones : (goRestoring r).zones = r.zones := (goRestoring_keeps r).zones (by simp)
    obtain ⟨u, kept, plan, doors, restoring, relockDone, keeps⟩ := goRestoring_blocks r
    obtain ⟨floors, stairs, idle⟩ := seqReset_plan u
    obtain ⟨-, isolation, table⟩ := reexamine_zones (resetZones (frameTaken s))
    obtain ⟨activeEntries, scopes⟩ := reexamined_reset (frameTaken s)
    have w : Keeps [.receivers, .zones, .mgmt, .seq, .doors, .ann, .allClear, .relock, .early, .lines] s
        (goRestoring r) := (begun.mono (by simp)).trans (keeps.mono (by simp))
    refine ⟨finish s (goRestoring r), (effect_on (fromP g) powered).trans (by rw [acts]), ?_, ?_, fun z => ⟨?_, ?_⟩, ?_,
      ?_, fun f used => ?_, fun st => ?_, ?_, ?_, ?_, w.finished⟩
    · rw [finish_regime, restoring]
    · rw [finish_regime, relockDone]
    · rw [finish_zones, zones, reset, reexamine_state, resetZones_quiet]
    · obtain ⟨b, own⟩ := table z
      rw [finish_zones, zones, own, resetZones_get, resetZone_fault]
      rfl
    · rw [finish_zones, zones, isolation]
      exact activeEntries
    · rw [finish_zones, zones, isolation, scopes]
      rfl
    · rw [finish_seq, plan]
      refine floors f ?_
      rw [inUse, kept.params (by simp), begun.params (by simp)]
      exact used
    · rw [finish_seq, plan]
      exact stairs st
    · rw [finish_seq, plan, idle]
    · rw [finish_doors, doors, begun.params (by simp)]
    · rw [finish_doors, doors, begun.doors (by simp)]
  · have refused : takeReset h.src (frameTaken s) = appendLog .resetRefused .none (.source h.src) (frameTaken s) :=
      if_neg other
    have handled : (if toBridge (frameTaken s) h.dst then takeReset h.src (frameTaken s)
        else filterFrame (frameWith h kindRegimeReset payload) (frameTaken s)) = takeReset h.src (frameTaken s) :=
      if_pos dst
    obtain ⟨step, within⟩ := frame_event (cs := [.receivers, .lines]) (g := fun s =>
      if toBridge s h.dst then takeReset h.src s else filterFrame (frameWith h kindRegimeReset payload) s) powered
      (handled.trans refused) (appendLog_within [] _ _ _ _) (appendLog_calm ..)
    exact ⟨_, step, appendLog_log .., by simp [settleLines], appendLog_regime .., within⟩

end Sys2Proof.Safety

/-! PROOFS. The supply (sections 10.3 and 10.7): SUPPLY FAILURE, POWER ON, and the end of a RESTART's wait. -/

namespace Sys2Proof.Safety

-- One proof at a time: the package as one text then compiles within the memory it is given.
set_option Elab.async false

open Sys2Proof.Machine

/-! ### Items written over a store (R171) -/

theorem mem_writeItem {x y : StoreItem} {store : List StoreItem} (mem : x ∈ writeItem y store) : x ∈ store ∨ x = y := by
  induction store with
  | nil => exact .inr (List.mem_singleton.mp mem)
  | cons z rest ih =>
    rw [writeItem] at mem
    split at mem
    · exact (List.mem_cons.mp mem).symm
    · split at mem
      · rcases List.mem_cons.mp mem with same | later
        · exact .inr same
        · exact .inl (List.mem_cons_of_mem _ later)
      · rcases List.mem_cons.mp mem with same | later
        · exact .inl (same ▸ List.mem_cons_self)
        · exact (ih later).imp_left (List.mem_cons_of_mem _)

theorem mem_of_mem_writeItems {x : StoreItem} {items store : List StoreItem} (mem : x ∈ writeItems items store) :
    x ∈ store ∨ x ∈ items := by
  induction items generalizing store with
  | nil => exact .inl mem
  | cons y items ih =>
    rcases ih (store := writeItem y store) mem with held | later
    · rcases mem_writeItem held with held | rfl
      · exact .inl held
      · exact .inr List.mem_cons_self
    · exact .inr (List.mem_cons_of_mem _ later)

/-- R171: an item of the store stays, or gives its place to one of the items written. -/
theorem writeItems_place {x : StoreItem} {items store : List StoreItem} (held : x ∈ store) :
    ∃ y ∈ writeItems items store, storePlace y = storePlace x ∧ (y = x ∨ y ∈ items) := by
  by_cases named : ∃ y ∈ items, storePlace y = storePlace x
  · induction items generalizing x store with
    | nil => obtain ⟨y, mem, -⟩ := named; cases mem
    | cons z items ih =>
      by_cases later : ∃ y ∈ items, storePlace y = storePlace x
      · by_cases here : storePlace z = storePlace x
        · obtain ⟨y, mem, place, from'⟩ := ih (mem_writeItem_self z store) (by rwa [here])
          refine ⟨y, mem, place.trans here, .inr ?_⟩
          rcases from' with same | from'
          · exact same ▸ List.mem_cons_self
          · exact List.mem_cons_of_mem _ from'
        · obtain ⟨y, mem, place, from'⟩ := ih (mem_writeItem_of_ne here held) later
          exact ⟨y, mem, place, from'.imp_right (List.mem_cons_of_mem _)⟩
      · obtain ⟨y, mem, place⟩ := named
        have first : y = z := (List.mem_cons.mp mem).resolve_right fun rest => later ⟨y, rest, place⟩
        subst first
        have own : ∀ w ∈ items, storePlace w = storePlace y → w = y := fun w rest same =>
          absurd ⟨w, rest, same.trans place⟩ later
        exact ⟨y, mem_writeItems_of_held (items := items) own (mem_writeItem_self y store), place, .inr List.mem_cons_self⟩
  · have own : ∀ y ∈ items, storePlace y = storePlace x → y = x := fun y mem place => absurd ⟨y, mem, place⟩ named
    exact ⟨x, mem_writeItems_of_held own held, rfl, .inl rfl⟩

/-- A store in order of place, no place held twice. -/
abbrev InOrder (store : List StoreItem) : Prop := store.Pairwise fun x y => storePlace x < storePlace y

theorem writeItem_inOrder (x : StoreItem) {store : List StoreItem} (ordered : InOrder store) : InOrder (writeItem x store) := by
  induction store with
  | nil => exact List.pairwise_singleton _ x
  | cons y rest ih =>
    obtain ⟨after, rest'⟩ := List.pairwise_cons.mp ordered
    rw [writeItem]
    split
    · next before =>
      refine List.pairwise_cons.mpr ⟨fun z mem => ?_, ordered⟩
      rcases List.mem_cons.mp mem with rfl | later
      · exact before
      · exact before.trans (after z later)
    · next notBefore =>
      split
      · next same =>
        exact List.pairwise_cons.mpr ⟨fun z mem => same ▸ after z mem, rest'⟩
      · next other =>
        refine List.pairwise_cons.mpr ⟨fun z mem => ?_, ih rest'⟩
        rcases mem_writeItem mem with held | rfl
        · exact after z held
        · exact lt_of_le_of_ne (not_lt.mp notBefore) (Ne.symm other)

theorem writeItems_inOrder (items : List StoreItem) {store : List StoreItem} (ordered : InOrder store) :
    InOrder (writeItems items store) := by
  induction items generalizing store with
  | nil => exact ordered
  | cons x items ih => exact ih (writeItem_inOrder x ordered)

/-! ### A write cut (log entry 3), and SUPPLY FAILURE (R164) -/

/-- The items of the write in progress that a cut finds written. -/
def cutItems (s : State) : List StoreItem :=
  ((((s.mgmt.writes.head?).elim [] (·.items)).zipIdx).filter fun p => Config.storeEntryWritten s.failures p.2).map (·.1)

theorem mem_cutItems {x : StoreItem} {s : State} (mem : x ∈ cutItems s) :
    ∃ w, s.mgmt.writes.head? = some w ∧ x ∈ w.items := by
  obtain ⟨p, written, rfl⟩ := List.mem_map.mp mem
  have item := List.fst_mem_of_mem_zipIdx (List.mem_filter.mp written).1
  cases head : s.mgmt.writes.head? with
  | none => simp [head] at item
  | some w => exact ⟨w, rfl, by simpa [head] using item⟩

theorem cutItems_idle {s : State} (idle : s.mgmt.writes = []) : cutItems s = [] := by
  simp [cutItems, idle]

theorem cutWrite_mgmt (s : State) :
    (cutWrite s).mgmt = { s.mgmt with store := writeItems (cutItems s) s.mgmt.store, writes := [] } := rfl

theorem cutWrite_mgmt_idle {s : State} (idle : s.mgmt.writes = []) : (cutWrite s).mgmt = s.mgmt := by
  rw [cutWrite_mgmt, cutItems_idle idle, ← idle]
  rfl

theorem powerDown_within (s : State) : Within [.lines, .mgmt, .supply] s (powerDown s) :=
  .of_only (fun b hb => by cases b <;> simp_all [same, powerDown, cutWrite]) rfl rfl rfl

/-- Settles O17. -/
theorem supplyFailureOpensRelays : Obligations.SupplyFailureOpensRelays := by
  intro s powered
  refine ⟨powerDown s, congrArg Host.Outcome.next (if_pos powered), rfl, fun l => Tbl.get_map _ _ l, rfl, rfl, rfl,
    fun x mem => ?_, fun x held => ?_, fun x held others => ?_, fun ordered => writeItems_inOrder _ ordered,
    fun idle => cutWrite_mgmt_idle idle, ⟨rfl, rfl⟩, rfl, powerDown_within s⟩
  · exact (mem_of_mem_writeItems mem).imp_right mem_cutItems
  · obtain ⟨y, mem, place, from'⟩ := writeItems_place (items := cutItems s) held
    exact ⟨y, mem, place, from'.imp_right mem_cutItems⟩
  · refine mem_writeItems_of_held (fun y mem place => ?_) held
    obtain ⟨w, head, item⟩ := mem_cutItems mem
    exact absurd place (others w head y item)

/-! ### A bridge being configured from its store (R171, R176) -/

/-- R4: a zone with its configuration and nothing else but the ISOLATED flag. -/
def ZoneFresh (x : Zone) : Prop := x = { Zone.blank with cfg := x.cfg, isolated := x.isolated }

/-- R28: a floor with its configuration and nothing else. -/
def FloorFresh (x : Floor) : Prop := x = { Floor.blank with occupancy := x.occupancy, mask := x.mask, rack := x.rack }

/-- R31: a stair in service that nobody uses. -/
def StairFresh (x : Stair) : Prop := x.loads = [] ∧ x.committed = 0 ∧ x.inService = true

/-- R93: a rack as it stands before it has replied. -/
def RackFresh (x : Rack) : Prop :=
  x = { Rack.blank with address := x.address, code := x.code, countdown := countdownTicks x.code }

/-- R176: a plan that has not run. -/
structure PlanFresh (p : Sequencer) : Prop where
  floors : ∀ f, FloorFresh (p.floors.get f)
  stairs : ∀ st, StairFresh (p.stairs.get st)
  state : p.state = .idle
  phase : p.phase = { left := 0, running := false }
  clock : p.planClock = 0 ∧ p.planTicks = 0

/-- R176: a scheduler with no job. -/
structure AnnFresh (a : Announce) : Prop where
  racks : ∀ r, RackFresh (a.racks.get r)
  jobs : ∀ j, a.jobs.get j = none
  channels : ∀ k, a.channels.get k = Channel.blank
  pages : ∀ e n, a.tenants.get e = some n → n.status = .idle

/-- R171, R176: the bridge at any point between a blank bridge and the one its store configures: every record as it stands
after power-on, its configuration apart, and nothing logged or noted. -/
structure Fresh (log : EventLog) (s : State) : Prop where
  log : s.log = log
  onsets : s.notes.onsets = 0
  silent : s.port.silent = false
  regime : s.regime = { state := .quiescent, allClearDone := false, relockDone := false }
  zones : ∀ z, ZoneFresh (s.zones.table.get z)
  isolation : ∀ e ∈ s.zones.isolation, e.active = true
  plan : PlanFresh s.seq
  cars : ∀ i c, s.lifts.cars.get i = some c → c = freshCar c.bank c.index c.served
  points : ∀ i p, s.doors.points.get i = some p → p = freshPoint p.controller p.output p.floor p.stair
  relock : s.doors.relock = none
  ann : AnnFresh s.ann
  stations : ∀ i x, s.sline.stations.get i = some x → x.lost = false ∧ x.noAnswer = 0 ∧ x.lastReply = none
  latches : ∀ l, (s.lines.get l).latch = false
  mark : 1 ≤ s.params.logMark

/-- A record set in a table whose records in use all have a property. -/
theorem set_all {α : Type} {n : Nat} {t : Tbl (Option α) n} {P : α → Prop} (h : ∀ i x, t.get i = some x → P x) (i : Fin n)
    {y : Option α} (hy : ∀ x, y = some x → P x) : ∀ j x, (t.set i y).get j = some x → P x := by
  intro j x held
  rw [Tbl.get_set] at held
  split at held
  · exact hy x held
  · exact h j x held

/-- A record set in a table whose records all have a property. -/
theorem set_every {α : Type} {n : Nat} {t : Tbl α n} {P : α → Prop} (h : ∀ i, P (t.get i)) (i : Fin n) {y : α} (hy : P y) :
    ∀ j, P ((t.set i y).get j) := by
  intro j
  rw [Tbl.get_set]
  split
  · exact hy
  · exact h j

section Entries

variable {log : EventLog} {s t : State}

/-! ### Zone Intake's tables -/

theorem reexamine_still (active : ∀ e ∈ s.zones.isolation, e.active = true) : reexamine s = s := by
  refine if_pos ?_
  refine (List.map_congr_left fun e mem => ?_).trans (List.map_id _)
  rw [active e mem]
  exact congrArg (fun b => ({ scope := e.scope, active := b } : IsoEntry)) (active e mem).symm

theorem applyZoneMap_fresh {i : Fin 128} {e : Option (Nat × Nat × Nat × Nat)} (h : Fresh log s)
    (applied : applyZoneMap i e s = some t) : Fresh log t := by
  have put : ∀ m, Fresh log (reexamine { s with zones := { s.zones with map := s.zones.map.set i m } }) := by
    intro m
    rw [reexamine_still (s := { s with zones := { s.zones with map := s.zones.map.set i m } }) h.isolation]
    exact { h with log := h.log }
  unfold applyZoneMap at applied
  extract_lets put' at applied
  split at applied
  · cases applied; exact put none
  · split at applied
    · split at applied
      · cases applied; exact put _
      · cases applied
    · cases applied

theorem applyZone_fresh {z : Fin 256} {kind floor stair ver group knock quiet : Nat} (h : Fresh log s)
    (applied : applyZone z kind floor stair ver group knock quiet s = some t) : Fresh log t := by
  unfold applyZone at applied
  split at applied
  · split at applied
    · cases applied
    · cases applied
      refine { h with zones := set_every h.zones z ?_ }
      rw [ZoneFresh, h.zones z]
  · cases applied

theorem restoreScope_fresh (c : Scope) (h : Fresh log s) : Fresh log (restoreScope c s) := by
  unfold restoreScope
  split
  · exact h
  · extract_lets e
    have isolation : ∀ x ∈ s.zones.isolation ++ [e], x.active = true := by
      intro x mem
      rcases List.mem_append.mp mem with held | new
      · exact h.isolation x held
      · rw [List.mem_singleton.mp new]
    rw [markIsolated_eq]
    refine { h with isolation := isolation, zones := fun z => ?_ }
    rw [markIsolated_get, ZoneFresh, h.zones z]

/-! ### The Sequencer's, the lifts' and the door points' tables -/

theorem takeFloorsOut_fresh (floors : FloorSet) (h : Fresh log s) : Fresh log (takeFloorsOut floors s) := by
  obtain ⟨racks, jobs, channels, pages⟩ := h.ann
  unfold takeFloorsOut
  extract_lets ann u
  have none' : ∀ j, u.ann.jobs.get j = none := fun j => by
    rw [show u.ann.jobs = s.ann.jobs.map _ from rfl, Tbl.get_map, jobs]
    rfl
  have still : ∀ l : List (Fin 2), l.foldl (fun s k => shrink .cut k floors s) u = u := by
    intro l
    induction l with
    | nil => rfl
    | cons k l ih =>
      have idle : (u.ann.channels.get k).state = .idle := congrArg Channel.state (channels k)
      rw [List.foldl_cons, shrink_idle idle, ih]
  rw [forEach, still]
  exact { h with ann := ⟨racks, none', channels, pages⟩ }

theorem arbiter_fresh (h : Fresh log s) : Fresh log (arbiter s) := by
  rw [(noneWaiting_of_empty h.ann.jobs).arbiter]
  exact h

theorem setFloor_fresh (h : Fresh log s) (f : Fin 64) {x : Floor} (fresh : FloorFresh x) : Fresh log (setFloor f x s) :=
  { h with plan := { h.plan with floors := set_every h.plan.floors f fresh } }

theorem applyFloor_fresh {f : Fin 64} {occupancy mask rack : Nat} (h : Fresh log s)
    (applied : applyFloor f occupancy mask rack s = some t) : Fresh log t := by
  unfold applyFloor at applied
  split at applied
  · cases applied
  · next r _ =>
    split at applied
    · cases applied
    · cases applied
      have left : Fresh log (if (s.seq.floors.get f).rack = r then s else takeFloorsOut (setOf fun g => g == f) s) := by
        split
        · exact h
        · exact takeFloorsOut_fresh _ h
      exact arbiter_fresh (setFloor_fresh left f (by rw [FloorFresh, left.plan.floors f]))

theorem applyStair_fresh {st : Fin 4} {capacity window mode : Nat} (h : Fresh log s)
    (applied : applyStair st capacity window mode s = some t) : Fresh log t := by
  unfold applyStair at applied
  split at applied
  · cases applied
  · cases applied
    exact { h with plan := { h.plan with stairs := set_every h.plan.stairs st (h.plan.stairs st) } }

theorem applyBank_fresh {b : Fin 2} {iface pf pz af az shaft timeout : Nat} (h : Fresh log s)
    (applied : applyBank b iface pf pz af az shaft timeout s = some t) : Fresh log t := by
  unfold applyBank at applied
  split at applied
  · split at applied
    · cases applied
    · cases applied
      exact { h with cars := h.cars }
  · cases applied

theorem applyCar_fresh {i : Fin 8} {e : Option (Nat × Nat × FloorSet)} (h : Fresh log s)
    (applied : applyCar i e s = some t) : Fresh log t := by
  unfold applyCar at applied
  split at applied
  · cases applied
  · extract_lets put at applied
    split at applied
    · cases applied
      exact { h with cars := set_all h.cars i fun _ none' => nomatch none' }
    · split at applied
      · extract_lets bk taken at applied
        split at applied
        · cases applied
        · cases applied
          exact { h with cars := set_all h.cars i fun _ same => by cases same; rfl }
      · cases applied

theorem changePoint_correct {i : Fin 128} {cause : DoorFaultCause} {old new : DoorPoint}
    (was : old.supervision = .correct) (is : new.supervision = .correct) : changePoint i cause old new s = setPoint i new s := by
  have unlogged : logDoorFault i old new cause (setPoint i new s) = setPoint i new s := by
    simp [logDoorFault, was, is]
  rw [changePoint, unlogged, was, is]
  rfl

theorem putPoint_fresh (h : Fresh log s) (i : Fin 128) (controller : Byte) (output : Fin 8) (floor : Fin 64) (stair : Fin 4) :
    Fresh log (putPoint i (freshPoint controller output floor stair) s) := by
  have placed : Fresh log (setPoint i (freshPoint controller output floor stair) s) :=
    { h with points := set_all h.points i fun _ same => by cases same; rfl }
  unfold putPoint
  split
  · next old held =>
    rw [changePoint_correct (congrArg DoorPoint.supervision (h.points i old held)) rfl]
    exact placed
  · exact placed

theorem applyDoorPoint_fresh {i : Fin 128} {e : Option (Nat × Nat × Nat × Nat)} (h : Fresh log s)
    (applied : applyDoorPoint i e s = some t) : Fresh log t := by
  unfold applyDoorPoint at applied
  split at applied
  · extract_lets u at applied
    cases applied
    have left : Fresh log u := by
      show Fresh log (match s.doors.points.get i with | some old => _ | none => s)
      split
      · exact putPoint_fresh h i _ _ _ _
      · exact h
    exact { left with points := set_all left.points i fun _ none' => nomatch none' }
  · split at applied
    · extract_lets a taken full at applied
      split at applied
      · cases applied
      · cases applied
        exact putPoint_fresh h i _ _ _ _
    · cases applied

end Entries

section Entries

variable {log : EventLog} {s t : State}

/-! ### The scheduler's tables and the racks -/

theorem applyMessages_fresh {f : Fin 64} {alert evac a b c d refuge : Nat} (h : Fresh log s)
    (applied : applyMessages f alert evac a b c d refuge s = some t) : Fresh log t := by
  unfold applyMessages at applied
  split at applied
  · cases applied
    exact { h with ann := { h.ann with jobs := h.ann.jobs } }
  · cases applied

theorem putTenant_fresh (h : Fresh log s) (i : Fin 16) {x : Option Tenant} (idle : ∀ n, x = some n → n.status = .idle) :
    Fresh log (putTenant i x s) := by
  have noPage : pageSlot s i = none := by
    simp [pageSlot, first?, h.ann.jobs]
  unfold putTenant
  rw [noPage]
  refine arbiter_fresh ?_
  exact { h with ann := { h.ann with pages := set_all h.ann.pages i idle } }

theorem applyTenant_fresh {i : Fin 16} {e : Option (Nat × FloorSet)} (h : Fresh log s)
    (applied : applyTenant i e s = some t) : Fresh log t := by
  unfold applyTenant at applied
  split at applied
  · cases applied
    exact putTenant_fresh h i fun _ none' => nomatch none'
  · extract_lets console taken at applied
    split at applied
    · cases applied
    · cases applied
      exact putTenant_fresh h i fun _ same => by cases same; rfl

theorem setRack_fresh (h : Fresh log s) (r : Fin 4) {x : Rack} (fresh : RackFresh x) : Fresh log (setRack r x s) :=
  { h with ann := { h.ann with racks := set_every h.ann.racks r fresh } }

theorem setCode_fresh (h : Fresh log s) (r : Fin 4) (code : Nat) : Fresh log (setCode r code s) := by
  refine setRack_fresh h r ?_
  rw [RackFresh, h.ann.racks r]
  rfl

theorem dropRack_idle (h : AnnFresh s.ann) (r : Fin 4) : dropRack r s = s := by
  have still : ∀ l : List (Fin 2), l.foldl (fun s k => shrink .dropped k (rackFloors s r) s) s = s := by
    intro l
    induction l with
    | nil => rfl
    | cons k l ih => rw [List.foldl_cons, shrink_idle (congrArg Channel.state (h.channels k)), ih]
  exact still _

theorem changeRack_waking {r : Fin 4} {cause : RackFaultCause} {x : Rack} (was : (s.ann.racks.get r).power = .waking)
    (is : x.power = .waking) : changeRack r cause x s = setRack r x s := by
  unfold changeRack
  simp [was, is]

theorem reAddress_fresh (h : Fresh log s) (r : Fin 4) (a : Byte) : Fresh log (reAddress r a s) := by
  unfold reAddress
  split
  · exact h
  · rw [dropRack_idle h.ann r]
    have fresh := h.ann.racks r
    refine arbiter_fresh ?_
    rw [changeRack_waking (by rw [fresh]; rfl) rfl]
    refine setRack_fresh h r ?_
    rw [RackFresh, fresh]
    rfl

/-! ### The filter list and the stations -/

theorem applyFilter_fresh {i : Fin 32} {enabled fld test a b action k : Nat} (h : Fresh log s)
    (applied : applyFilter i enabled fld test a b action k s = some t) : Fresh log t := by
  unfold applyFilter at applied
  split at applied
  · split at applied
    · cases applied
    · cases applied
      exact { h with log := h.log }
  · cases applied

theorem joinEarly_fresh (h : Fresh log s) (i : Fin 48) : Fresh log (joinEarly i s) := by
  unfold joinEarly
  split
  · exact h
  · exact { h with log := h.log }

theorem setStation_fresh (h : Fresh log s) (i : Fin 48) {x : Option Station}
    (fresh : ∀ y, x = some y → y.lost = false ∧ y.noAnswer = 0 ∧ y.lastReply = none) : Fresh log (setStation i x s) :=
  { h with stations := set_all h.stations i fresh }

theorem applyStation_fresh {i : Fin 48} {e : Option (Nat × Nat)} (h : Fresh log s)
    (applied : applyStation i e s = some t) : Fresh log t := by
  have left : Fresh log (leaveEarly i s) := { h with log := h.log }
  unfold applyStation at applied
  split at applied
  · cases applied
    have out : Fresh log (setStation i none (leaveEarly i s)) := setStation_fresh left i fun _ none' => nomatch none'
    exact { out with log := out.log }
  · split at applied
    · cases applied
    · extract_lets address taken at applied
      split at applied
      · cases applied
      · split at applied
        · cases applied
          exact h
        · cases applied
          exact joinEarly_fresh (setStation_fresh left i fun _ same => by cases same; exact ⟨rfl, rfl, rfl⟩) i

/-! ### Parameters, addresses and the common lines -/

theorem setParams_fresh (h : Fresh log s) {f : Params → Params} (mark : 1 ≤ (f s.params).logMark) :
    Fresh log (setParams f s) := { h with mark := mark }

theorem takeRate_fresh (h : Fresh log s) (l : Line) : Fresh log (takeRate l s) := by
  unfold takeRate
  split
  · cases l <;> exact { h with log := h.log }
  · exact h

theorem applyRackAddress_fresh {r : Fin 4} {v : Nat} (h : Fresh log s) (applied : applyRackAddress r v s = some t) :
    Fresh log t := by
  unfold applyRackAddress at applied
  extract_lets a at applied
  split at applied
  · cases applied
  · cases applied
    exact reAddress_fresh h r a

theorem indexedParam_fresh {n v : Nat} {f : Fin n → Params → Params} (h : Fresh log s)
    (mark : ∀ x, 1 ≤ (f x s.params).logMark) (applied : ((index? n v).map fun x => setParams (f x) s) = some t) :
    Fresh log t := by
  obtain ⟨x, -, rfl⟩ := Option.map_eq_some_iff.mp applied
  exact setParams_fresh h (mark x)

theorem param_fresh {f : Params → Params} (h : Fresh log s) (mark : 1 ≤ (f s.params).logMark)
    (applied : some (setParams f s) = some t) : Fresh log t := by
  cases applied
  exact setParams_fresh h mark

theorem rate_fresh {f : Params → Params} {l : Line} {c : Prop} [Decidable c] (h : Fresh log s)
    (mark : 1 ≤ (f s.params).logMark) (applied : (if c then some (takeRate l (setParams f s)) else none) = some t) :
    Fresh log t := by
  split at applied
  · cases applied
    exact takeRate_fresh (setParams_fresh h mark) l
  · cases applied

theorem applyParam_fresh {i v : Nat} (h : Fresh log s) (applied : applyParam i v s = some t) : Fresh log t := by
  unfold applyParam at applied
  split at applied
  · cases applied
    unfold applyNf
    extract_lets nf leaving
    have left : Fresh log (if leaving = 0 then s else takeFloorsOut leaving s) := by
      split
      · exact h
      · exact takeFloorsOut_fresh _ h
    exact arbiter_fresh (setParams_fresh left left.mark)
  · exact indexedParam_fresh h (fun _ => h.mark) applied
  · exact param_fresh h h.mark applied
  · exact param_fresh h h.mark applied
  · exact indexedParam_fresh h (fun _ => h.mark) applied
  · exact param_fresh h h.mark applied
  · exact param_fresh h h.mark applied
  · exact applyRackAddress_fresh h applied
  · exact applyRackAddress_fresh h applied
  · exact applyRackAddress_fresh h applied
  · exact applyRackAddress_fresh h applied
  · exact indexedParam_fresh h (fun _ => h.mark) applied
  · exact indexedParam_fresh h (fun _ => h.mark) applied
  · exact param_fresh h h.mark applied
  · exact param_fresh h h.mark applied
  · exact param_fresh h h.mark applied
  · exact param_fresh h h.mark applied
  · exact param_fresh h h.mark applied
  · exact param_fresh h h.mark applied
  · exact rate_fresh h h.mark applied
  · exact rate_fresh h h.mark applied
  · exact param_fresh h h.mark applied
  · exact param_fresh h h.mark applied
  · split at applied
    · exact param_fresh h h.mark applied
    · cases applied
  · exact param_fresh h h.mark applied
  · exact param_fresh h (le_max_left 1 _) applied
  · cases applied

theorem applyAddress_fresh {i v : Nat} (h : Fresh log s) (applied : applyAddress i v s = some t) : Fresh log t := by
  unfold applyAddress at applied
  split at applied
  · cases applied
  · extract_lets a at applied
    split at applied
    · cases applied; exact { h with log := h.log }
    · cases applied; exact { h with log := h.log }
    · cases applied; exact { h with log := h.log }
    · cases applied; exact { h with log := h.log }
    · cases applied

/-- R165, R176: no condition holds in a bridge being configured. -/
theorem Fresh.holds (h : Fresh log s) (start : log.sinceRead = 0) (c : Condition) : holds s c = false := by
  cases c with
  | regimeActive => simp only [Machine.holds, h.regime]; rfl
  | anyPreAlarm =>
    simp only [Machine.holds, rows_any, List.any_eq_false]
    intro z _
    rw [h.zones z]
    exact Bool.false_ne_true
  | zoneFault =>
    simp only [Machine.holds, rows_any, List.any_eq_false]
    intro z _
    rw [h.zones z]
    exact Bool.false_ne_true
  | stationLost =>
    simp only [Machine.holds, rows_any, List.any_eq_false]
    intro i _
    cases held : s.sline.stations.get i with
    | none => exact Bool.false_ne_true
    | some x => simp [(h.stations i x held).1]
  | doorFault =>
    simp only [Machine.holds, rows_any, List.any_eq_false]
    intro i _
    cases held : s.doors.points.get i with
    | none => exact Bool.false_ne_true
    | some p =>
      rw [h.points i p held]
      exact Bool.false_ne_true
  | carOverdueOrStranded =>
    simp only [Machine.holds, rows_any, List.any_eq_false]
    intro i _
    cases held : s.lifts.cars.get i with
    | none => exact Bool.false_ne_true
    | some c =>
      rw [h.cars i c held]
      exact Bool.false_ne_true
  | rackFault =>
    simp only [Machine.holds, rows_any, List.any_eq_false]
    intro r _
    rw [h.ann.racks r]
    simp [Rack.blank]
  | pSilent => exact h.silent
  | logWatermark =>
    have mark := h.mark
    simp only [Machine.holds, h.log, start, decide_eq_false_iff_not]
    omega

theorem applyCommon_fresh {l : Fin 2} {route mode : Nat} (h : Fresh log s) (start : log.sinceRead = 0)
    (applied : applyCommon l route mode s = some t) : Fresh log t := by
  unfold applyCommon at applied
  split at applied
  · cases applied
  · cases applied
    have noneNoted : ∀ c, noted s c = false := fun c => by simp [noted, h.onsets]
    have taken : Fresh log (takeOnsets s) := by
      refine { h with onsets := rfl, latches := fun i => ?_ }
      rw [takeOnsets, Tbl.get_map]
      simp [h.latches i, noneNoted]
    refine { taken with latches := fun i => ?_ }
    have quiet : ∀ x, anyHolds (takeOnsets s) x = false := fun x => by
      simp [anyHolds, taken.holds start]
    by_cases same : l = i
    · subst same
      simp [loadLine, quiet]
    · show (((takeOnsets s).lines.upd l _).get i).latch = false
      rw [Tbl.get_upd_ne _ _ same]
      exact taken.latches i

theorem startTest_fresh (h : Fresh log s) : Fresh log (startTest s) := { h with ann := { h.ann with jobs := h.ann.jobs } }

end Entries

/-! ### The store applied (R171) -/

section Store

variable {log : EventLog} {s t : State}

theorem indexed_fresh {n i : Nat} {f : Fin n → Option State} (k : ∀ x t, f x = some t → Fresh log t)
    (applied : (index? n i).bind f = some t) : Fresh log t := by
  obtain ⟨x, -, made⟩ := Option.bind_eq_some_iff.mp applied
  exact k x t made

theorem started_fresh {o : Option State} (k : ∀ u, o = some u → Fresh log u) (applied : o.map startTest = some t) :
    Fresh log t := by
  obtain ⟨u, made, rfl⟩ := Option.map_eq_some_iff.mp applied
  exact startTest_fresh (k u made)

theorem applyEntry_fresh {tb : TableId} {i : Nat} {e : Entry} (h : Fresh log s) (start : log.sinceRead = 0)
    (applied : applyEntry tb i e s = some t) : Fresh log t := by
  unfold applyEntry at applied
  split at applied
  · exact indexed_fresh (fun _ _ => applyZoneMap_fresh h) applied
  · exact indexed_fresh (fun _ _ => applyZone_fresh h) applied
  · exact indexed_fresh (fun _ _ => applyFloor_fresh h) applied
  · exact indexed_fresh (fun _ _ => applyStair_fresh h) applied
  · split at applied
    · cases applied
    · exact indexed_fresh (fun _ _ => applyBank_fresh h) applied
  · exact indexed_fresh (fun _ _ => applyCar_fresh h) applied
  · exact indexed_fresh (fun _ _ => applyDoorPoint_fresh h) applied
  · exact indexed_fresh (fun _ _ => applyStation_fresh h) applied
  · exact indexed_fresh (fun _ _ => applyMessages_fresh h) applied
  · exact indexed_fresh (fun _ _ => applyTenant_fresh h) applied
  · exact indexed_fresh (fun _ _ => applyFilter_fresh h) applied
  · exact started_fresh (fun _ => applyParam_fresh h) applied
  · split at applied
    · exact started_fresh (fun _ => applyCommon_fresh h start) applied
    · split at applied
      · exact started_fresh (fun _ => applyCommon_fresh h start) applied
      · cases applied
  · exact applyAddress_fresh h applied
  · cases applied

theorem applyItem_fresh (h : Fresh log s) (start : log.sinceRead = 0) (x : StoreItem) : Fresh log (applyItem s x) := by
  cases x with
  | entry tb i e =>
    cases applied : applyEntry tb i e s with
    | none => simpa [applyItem, applied] using h
    | some t => simpa [applyItem, applied] using applyEntry_fresh h start applied
  | code r code => exact setCode_fresh h r code
  | isolation i scope =>
    cases scope with
    | none => exact h
    | some c => exact restoreScope_fresh c h
  | key k => exact { h with log := h.log }

theorem items_fresh (start : log.sinceRead = 0) (items : List StoreItem) (h : Fresh log s) :
    Fresh log (items.foldl applyItem s) := by
  induction items generalizing s with
  | nil => exact h
  | cons x items ih => exact ih (applyItem_fresh h start x)

end Store

/-- R176: the blank bridge that a store is applied to. -/
def blankFor (log : EventLog) (s : State) : State :=
  { State.blank with log, failures := s.failures, pending := s.pending, mgmt := { State.blank.mgmt with store := s.mgmt.store } }

theorem blankFor_fresh (log : EventLog) (s : State) : Fresh log (blankFor log s) where
  log := rfl
  onsets := rfl
  silent := rfl
  regime := rfl
  zones z := by
    rw [show (blankFor log s).zones.table = Tbl.fill 256 Zone.blank from rfl, Tbl.get_fill]
    rfl
  isolation e mem := absurd mem List.not_mem_nil
  plan := {
    floors := fun f => by
      rw [show (blankFor log s).seq.floors = Tbl.fill 64 Floor.blank from rfl, Tbl.get_fill]
      rfl
    stairs := fun st => by
      rw [show (blankFor log s).seq.stairs = Tbl.fill 4 Stair.blank from rfl, Tbl.get_fill]
      exact ⟨rfl, rfl, rfl⟩
    state := rfl
    phase := rfl
    clock := ⟨rfl, rfl⟩ }
  cars i c held := by
    rw [show (blankFor log s).lifts.cars = Tbl.fill 8 none from rfl, Tbl.get_fill] at held
    cases held
  points i p held := by
    rw [show (blankFor log s).doors.points = Tbl.fill 128 none from rfl, Tbl.get_fill] at held
    cases held
  relock := rfl
  ann := {
    racks := fun r => by
      rw [show (blankFor log s).ann.racks = Tbl.fill 4 Rack.blank from rfl, Tbl.get_fill]
      rfl
    jobs := fun j => Tbl.get_fill none j
    channels := fun k => Tbl.get_fill Channel.blank k
    pages := fun e n held => by
      rw [show (blankFor log s).ann.tenants = Tbl.fill 16 none from rfl, Tbl.get_fill] at held
      cases held }
  stations i x held := by
    rw [show (blankFor log s).sline.stations = Tbl.fill 48 none from rfl, Tbl.get_fill] at held
    cases held
  latches l := by
    rw [show (blankFor log s).lines = factoryLines from rfl]
    revert l
    decide
  mark := by
    show 1 ≤ Params.factory.logMark
    decide

theorem fromStore_fresh (log : EventLog) (s : State) (start : log.sinceRead = 0) : Fresh log (fromStore log s) :=
  items_fresh start s.mgmt.store (blankFor_fresh log s)

/-! ### Coming up (R176) -/

theorem PlanFresh.eq {p : Sequencer} (h : PlanFresh p) :
    p = { floors := p.floors, stairs := p.stairs, state := .idle, phase := { left := 0, running := false },
          planClock := 0, planTicks := 0 } := by
  obtain ⟨-, -, state, phase, clock, ticks⟩ := h
  cases p
  simp_all

section ComeUp

variable {log : EventLog} (d : RestartDetail) {s : State} (start : log.sinceRead = 0)

/-- The bridge of a store in service, its RESTART record appended and its lines not yet settled. -/
def restarted (log : EventLog) (d : RestartDetail) (s : State) : State :=
  appendLog .restart .none (.restart d) (boot log s)

theorem comeUp_eq (log : EventLog) (d : RestartDetail) (s : State) :
    comeUp log d s = settleLines (boot log s) (restarted log d s) := rfl

theorem restarted_ann (log : EventLog) (s : State) : (restarted log d s).ann = { (startTest (fromStore log s)).ann with
    jobs := Tbl.fill 16 none, channels := Tbl.fill 2 Channel.blank, owed := [], liveLimit := none } := appendLog_ann ..

theorem restarted_lines (log : EventLog) (s : State) : (restarted log d s).lines = (fromStore log s).lines :=
  appendLog_lines ..

theorem comeUp_lines (log : EventLog) (s : State) : (comeUp log d s).lines =
    (fromStore log s).lines.map (settleLine (boot log s) (restarted log d s)) :=
  congrArg (Tbl.map (settleLine (boot log s) (restarted log d s))) (restarted_lines d log s)

/-- R165: the RESTART record changes no condition but LOG WATERMARK. -/
theorem restarted_holds (log : EventLog) (s : State) {c : Condition} (other : c ≠ .logWatermark) :
    holds (restarted log d s) c = holds (boot log s) c := by
  cases c with
  | logWatermark => exact absurd rfl other
  | _ => simp only [Machine.holds, restarted, appendLog_regime, appendLog_zones, appendLog_sline, appendLog_doors,
      appendLog_lifts, appendLog_ann, appendLog_port]

theorem comeUp_linesInv (log : EventLog) (s : State) : LinesInv (comeUp log d s) :=
  settleLines_linesInv _ (appendLog_powered ..)

include start

theorem comeUp_poweredOn : PoweredOn log d s (comeUp log d s) := by
  have h := fromStore_fresh log s start
  have ann : (comeUp log d s).ann = _ := restarted_ann d log s
  have zones : (comeUp log d s).zones = (fromStore log s).zones := appendLog_zones ..
  have plan : (comeUp log d s).seq = (fromStore log s).seq := appendLog_seq ..
  have lifts : (comeUp log d s).lifts = (fromStore log s).lifts := appendLog_lifts ..
  have doors : (comeUp log d s).doors = (fromStore log s).doors := appendLog_doors ..
  have sline : (comeUp log d s).sline = (boot log s).sline := appendLog_sline ..
  have params : (comeUp log d s).params = (fromStore log s).params := appendLog_params ..
  have racks : (comeUp log d s).ann.racks = (fromStore log s).ann.racks := by rw [ann]; rfl
  have tenants : (comeUp log d s).ann.tenants = (fromStore log s).ann.tenants := by rw [ann]; rfl
  exact {
    serves := ⟨appendLog_powered .., appendLog_failures .., appendLog_pending ..⟩
    logged := comeUp_log log d s
    params := params
    addrs := appendLog_addrs ..
    mgmt := appendLog_mgmt ..
    zones := zones
    zoneValues := fun z => by rw [zones]; exact h.zones z
    isolation := by rw [zones]; exact h.isolation
    regime := appendLog_regime ..
    plan := by
      rw [plan]
      exact h.plan.eq
    floorValues := fun f => by rw [plan]; exact h.plan.floors f
    stairValues := fun st => by rw [plan]; exact h.plan.stairs st
    lifts := lifts
    carValues := by rw [lifts]; exact h.cars
    doors := by rw [doors, ← h.relock]
    pointValues := by rw [doors]; exact h.points
    rows := by rw [ann]; rfl
    racks := racks
    rackValues := by
      intro r x _
      have fresh : RackFresh x := by
        show RackFresh ((comeUp log d s).ann.racks.get r)
        rw [racks]
        exact h.ann.racks r
      have waking : ((comeUp log d s).ann.racks.get r).power = .waking := congrArg Rack.power fresh
      refine ⟨waking, congrArg Rack.commanded fresh, congrArg Rack.countdown fresh, by simp [countdownRuns, waking],
        fun k => ?_, congrArg Rack.reported fresh⟩
      rw [congrArg Rack.ended fresh]
      exact Tbl.get_fill none k
    jobs := by
      rw [ann]
      exact ⟨fun j => Tbl.get_fill none j, rfl, rfl⟩
    channels := fun k => by
      rw [ann]
      exact Tbl.get_fill Channel.blank k
    tenants := tenants
    pages := by rw [tenants]; exact h.ann.pages
    testTimer := by
      rw [ann, params]
      rfl
    port := (appendLog_port ..).trans (by rw [params]; rfl)
    cls := appendLog_cls ..
    sline := sline.trans (by rw [params]; rfl)
    stations := by
      rw [sline]
      exact h.stations
    lines := fun l => by
      rw [comeUp_lines, Tbl.get_map]
      exact ⟨rfl, rfl⟩
    notes := congrArg (Notes.mk 0) (appendLog_notes_owners .restart .none (.restart d) (boot log s)) }

/-- R163, R165: of the conditions LOG WATERMARK alone can come to hold as the bridge comes up, and does so with a
watermark of 1. -/
theorem restarted_onset (l : CommonLine) : anyOnset (boot log s) (restarted log d s) l =
    (l.route.getLsbD 8 && decide ((fromStore log s).params.logMark ≤ 1)) := by
  have mark : 1 ≤ (fromStore log s).params.logMark := (fromStore_fresh log s start).mark
  have notedNow : ∀ c, noted (restarted log d s) c = true ↔
      c = .logWatermark ∧ (fromStore log s).params.logMark ≤ 1 := by
    intro c
    have before : noted (boot log s) c = false := by
      have none' : (boot log s).notes.onsets = 0 := rfl
      simp [noted, none']
    have params : (boot log s).params = (fromStore log s).params := rfl
    have count : (boot log s).log.sinceRead = 0 := start
    rw [restarted, noted_appendLog, before, params, count]
    simp
    omega
  rw [Bool.eq_iff_iff, anyOnset_iff, Bool.and_eq_true, decide_eq_true_iff]
  constructor
  · rintro ⟨c, routed, noted' | ⟨was, is⟩⟩
    · obtain ⟨rfl, low⟩ := (notedNow c).mp noted'
      exact ⟨routed, low⟩
    · by_cases watermark : c = .logWatermark
      · subst watermark
        refine ⟨routed, ?_⟩
        have count : (restarted log d s).log.sinceRead = 1 := by
          simp only [restarted, appendLog_log, appendRecord]
          rw [show (boot log s).log.sinceRead = 0 from start]
          rfl
        have params : (restarted log d s).params = (fromStore log s).params := appendLog_params ..
        simp only [Machine.holds, count, params, decide_eq_true_eq] at is
        exact is
      · rw [restarted_holds d log s watermark, was] at is
        cases is
  · rintro ⟨routed, low⟩
    exact ⟨.logWatermark, routed, .inl ((notedNow _).mpr ⟨rfl, low⟩)⟩

theorem comeUp_latch (l : Fin 2) : ((comeUp log d s).lines.get l).latch =
    (((comeUp log d s).lines.get l).latched && ((comeUp log d s).lines.get l).route.getLsbD 8 &&
      decide ((comeUp log d s).params.logMark ≤ 1)) := by
  have clear := (fromStore_fresh log s start).latches l
  have params : (comeUp log d s).params = (fromStore log s).params := appendLog_params ..
  rw [comeUp_lines, Tbl.get_map, params]
  simp only [settleLine, clear, Bool.false_or, restarted_onset d start, Bool.and_assoc]

end ComeUp

/-! ### POWER ON, and the end of a RESTART's wait (R175, R176) -/

theorem appendLog_eq (k : EventKind) (x : Subject) (d : Detail) (s : State) :
    appendLog k x d s = { s with
      log := appendRecord s.log k x d, sline := (appendLog k x d s).sline, notes := (appendLog k x d s).notes } := by
  unfold appendLog noteOnset
  split <;> rfl

/-- R164: the lines of a blank store: clear, inactive, and without LOG WATERMARK in their route sets. -/
theorem factoryLines_quiet : ∀ l, { factoryLines.get l with latch := false, output := false } = factoryLines.get l ∧
    (factoryLines.get l).route.getLsbD 8 = false := by
  decide

section Blank

variable {s : State} (blank : s.mgmt.store = [])

include blank

theorem fromStore_blank : fromStore emptyLog s = blankFor emptyLog s := by
  rw [fromStore, blank, blankFor, blank]
  rfl

theorem boot_blank : boot emptyLog s = blankFor emptyLog s := by
  rw [boot, blank, blankFor, blank]
  rfl

/-- R163: no condition holds in a bridge that comes up from a blank store: the watermark is above 1. -/
theorem restarted_holds_blank (c : Condition) : holds (restarted emptyLog .powerOn s) c = false := by
  by_cases watermark : c = .logWatermark
  · subst watermark
    have count : (restarted emptyLog .powerOn s).log.sinceRead = 1 := by
      simp only [restarted, appendLog_log, appendRecord]
      rfl
    have params : (restarted emptyLog .powerOn s).params = Params.factory := by
      rw [restarted, appendLog_params, boot_blank blank]
      rfl
    simp only [Machine.holds, count, params]
    rfl
  · rw [restarted_holds .powerOn emptyLog s watermark, boot_blank blank, (blankFor_fresh emptyLog s).holds rfl]

/-- R164: the lines of a blank store stay as they are. -/
theorem settleLine_blank (l : Fin 2) :
    settleLine (boot emptyLog s) (restarted emptyLog .powerOn s) (factoryLines.get l) = factoryLines.get l := by
  obtain ⟨still, unrouted⟩ := factoryLines_quiet l
  have quiet : anyHolds (restarted emptyLog .powerOn s) (factoryLines.get l) = false := by
    simp [anyHolds, restarted_holds_blank blank]
  have onset : anyOnset (boot emptyLog s) (restarted emptyLog .powerOn s) (factoryLines.get l) = false := by
    rw [restarted_onset .powerOn rfl, unrouted, Bool.false_and]
  have clear : (factoryLines.get l).latch = false := (congrArg CommonLine.latch still).symm
  simp only [settleLine, quiet, onset, clear, Bool.or_false, Bool.and_false]
  exact still

theorem restarted_blank : restarted emptyLog .powerOn s =
    { blankFor emptyLog s with log := State.reset.log, notes := (restarted emptyLog .powerOn s).notes } := by
  have log : appendRecord emptyLog .restart .none (.restart .powerOn) = State.reset.log := by
    simp only [appendRecord]
    rfl
  have sline : (restarted emptyLog .powerOn s).sline = (blankFor emptyLog s).sline := by
    rw [restarted, appendLog_sline, boot_blank blank]
    rfl
  have made : restarted emptyLog .powerOn s = { boot emptyLog s with
      log := appendRecord emptyLog .restart .none (.restart .powerOn)
      sline := (restarted emptyLog .powerOn s).sline
      notes := (restarted emptyLog .powerOn s).notes } := appendLog_eq ..
  refine made.trans ?_
  rw [log, sline, boot_blank blank]

theorem powerUp_blank : powerUp s = { State.reset with failures := s.failures, pending := s.pending } := by
  have lines : (restarted emptyLog .powerOn s).lines.map
      (settleLine (boot emptyLog s) (restarted emptyLog .powerOn s)) = factoryLines := by
    refine Tbl.ext_get fun l => ?_
    have held : (restarted emptyLog .powerOn s).lines = factoryLines := by
      rw [restarted_lines, fromStore_blank blank]
      rfl
    rw [Tbl.get_map, held, settleLine_blank blank]
  have notes : ({ onsets := 0, owners := (restarted emptyLog .powerOn s).notes.owners } : Notes) = State.reset.notes :=
    congrArg (Notes.mk 0) (appendLog_notes_owners ..)
  have settled : powerUp s = { restarted emptyLog .powerOn s with lines := factoryLines, notes := State.reset.notes } := by
    rw [← lines, ← notes]
    exact comeUp_eq ..
  rw [settled, restarted_blank blank, blankFor, blank]
  rfl

end Blank

/-- Settles O16. -/
theorem powerOnServes : Obligations.PowerOnServes := fun s =>
  ⟨powerUp s, rfl, comeUp_poweredOn .powerOn rfl, comeUp_latch .powerOn rfl, comeUp_linesInv .powerOn _ _, powerUp_blank⟩

/-- Settles O18. -/
theorem restartKeepsTheLog : Obligations.RestartKeepsTheLog := by
  intro s powered waiting idle
  have acts : restartNow s = comeUp { s.log with sinceRead := 0 } .restart (cutWrite s) := if_pos ⟨waiting, idle⟩
  have on := comeUp_poweredOn (log := { s.log with sinceRead := 0 }) .restart (s := cutWrite s) rfl
  refine ⟨restartNow s, congrArg Host.Outcome.next (if_pos powered), ?_⟩
  rw [acts]
  refine ⟨on, fun none' => ⟨?_, ?_⟩, ?_, comeUp_latch .restart rfl, comeUp_linesInv .restart _ _⟩
  · exact (congrArg Mgmt.store on.mgmt).trans (show (cutWrite s).mgmt.store = s.mgmt.store by rw [cutWrite_mgmt_idle none'])
  · exact on.serves.2.1.trans (if_pos none')
  · exact on.serves.2.2

end Sys2Proof.Safety
